-- ==== Sys2Proof/Word.lean ====
section
/-! DEFINITION. The two word types of the block (00_scope.md R6): the 8-bit byte and the 16-bit address. -/

namespace Sys2Proof

/-- A register byte, a storage byte, an opcode or operand byte (R6: 8 bits). -/
abbrev Byte := BitVec 8

/-- A logical address, PC, SP, or a register pair seen as one value (R6: 16 bits). -/
abbrev Addr := BitVec 16

end Sys2Proof
end

