-- ==== Sys2Proof/Config.lean ====
section
/-! DEFINITION. What an instantiation of the block fixes: the open parameters of 00_scope.md R7 and the fixed
sizes of R6. No value of the block is left free (93_implementation_defined.md: "Nothing in the block is treated as
`any value`"), so there is no opaque constant here. -/

namespace Sys2Proof

/-- `ROTATE_VARIANT` (R7, 92_eei_decisions.md D8): which bit `RLA` and every `RLC r` move into bit 0. -/
inductive RotateVariant where
  | circular
  | throughCarry
  deriving DecidableEq, Repr

/-- `UNIMPL_POLICY` (R7, R206, D13): what the Step Driver does when a Step signals `UnimplementedOpcode`. -/
inductive UnimplPolicy where
  | continueRun
  | stopRun
  deriving DecidableEq, Repr

/-- `RUN_LENGTH` (R7, R255, D22): the number of Steps the driver performs, or unbounded. -/
inductive RunLength where
  | steps (n : Nat)
  | unbounded
  deriving DecidableEq, Repr

/-- The default of `ROTATE_VARIANT` (R7). -/
def Config.defaultRotateVariant : RotateVariant := .circular

/-- The default of `UNIMPL_POLICY` (R7). -/
def Config.defaultUnimplPolicy : UnimplPolicy := .continueRun

/-- Capacity of region 0, the destination of the bulk load (R31, R50, R205). -/
def Config.bulkLoadCapacity : Nat := 16384

/-- Size of region 1, the size of every `ROMN_IMAGE` (R7, R31, R241). -/
def Config.romNSize : Nat := 16384

/-- The default of `ROMN_IMAGE` (R7): all zero. -/
def Config.defaultRomNImage : Vector Byte Config.romNSize := Vector.replicate Config.romNSize 0

/-- The default of `BOOT_IMAGE` (R7): empty. -/
def Config.defaultBootImage : List Byte := []

/-- The default of `RUN_LENGTH` (R7). -/
def Config.defaultRunLength : RunLength := .unbounded

/-- The five open parameters of R7, each with its default; the limit of 16384 bytes on `bootImage` is the bulk load's check
(R50, R205). -/
structure Parameters where
  rotateVariant : RotateVariant := Config.defaultRotateVariant
  romNImage : Vector Byte Config.romNSize := Config.defaultRomNImage
  bootImage : List Byte := Config.defaultBootImage
  unimplPolicy : UnimplPolicy := Config.defaultUnimplPolicy
  runLength : RunLength := Config.defaultRunLength
  deriving DecidableEq, Repr

end Sys2Proof
end

