-- ==== Sys2Proof/Syntax.lean ====
section
/-! DEFINITION. The abstract instructions: one constructor for each row of spec/opcode_table.json (131 rows), with the
operand values the instruction carries in its bytes (30_encoding.md R63, R64). The table gives each register
operand a row of its own, so the constructors are grouped below by the operand letter of 00_scope.md section 5. -/

namespace Sys2Proof

/-- The 8-bit register operands `r` of the instruction rules (10_state.md R12; 92_eei_decisions.md D4): the seven
registers a 3-bit field selects. F is none of them. -/
inductive Reg8 where
  | a | b | c | d | e | h | l
  deriving DecidableEq, Repr

/-- The register pairs (10_state.md R11): the operands `rr` of `PUSH rr` and `POP rr` (D5). -/
inductive Pair where
  | bc | de | hl
  deriving DecidableEq, Repr

/-- The 16-bit operands `rr` of `LD rr,n16` and `INC rr` (10_state.md R12, D5). -/
inductive Reg16 where
  | bc | de | hl | sp
  deriving DecidableEq, Repr

/-- The instruction set: R66 (primary), R68 (extended), and the two fallback rows of R67 and R69.
An operand byte or word is an argument; `e` of `jrNZe8` is the raw displacement byte, sign-extended where it is used. -/
inductive Instr where
  /-- `LD BC, n16` (R101) -/
  | ldBCn16 (v : Addr)
  /-- `LD [BC], A` (R105) -/
  | ldIndBCA
  /-- `INC BC` (R122) -/
  | incBC
  /-- `INC B` (R120) -/
  | incB
  /-- `DEC B` (R121) -/
  | decB
  /-- `LD B, n8` (R100) -/
  | ldBn8 (n : Byte)
  /-- `LD A, [BC]` (R102) -/
  | ldAIndBC
  /-- `INC C` (R120) -/
  | incC
  /-- `DEC C` (R121) -/
  | decC
  /-- `LD C, n8` (R100) -/
  | ldCn8 (n : Byte)
  /-- `LD DE, n16` (R101) -/
  | ldDEn16 (v : Addr)
  /-- `LD [DE], A` (R106) -/
  | ldIndDEA
  /-- `INC DE` (R122) -/
  | incDE
  /-- `INC D` (R120) -/
  | incD
  /-- `DEC D` (R121) -/
  | decD
  /-- `LD D, n8` (R100) -/
  | ldDn8 (n : Byte)
  /-- `RLA` (R130) -/
  | rla
  /-- `LD A, [DE]` (R103) -/
  | ldAIndDE
  /-- `INC E` (R120) -/
  | incE
  /-- `DEC E` (R121) -/
  | decE
  /-- `LD E, n8` (R100) -/
  | ldEn8 (n : Byte)
  /-- `JR NZ, e8` (R150) -/
  | jrNZe8 (e : Byte)
  /-- `LD HL, n16` (R101) -/
  | ldHLn16 (v : Addr)
  /-- `LD [HL+], A` (R108) -/
  | ldIndHLIncA
  /-- `INC HL` (R122) -/
  | incHL
  /-- `INC H` (R120) -/
  | incH
  /-- `DEC H` (R121) -/
  | decH
  /-- `LD H, n8` (R100) -/
  | ldHn8 (n : Byte)
  /-- `INC L` (R120) -/
  | incL
  /-- `DEC L` (R121) -/
  | decL
  /-- `LD L, n8` (R100) -/
  | ldLn8 (n : Byte)
  /-- `LD SP, n16` (R101) -/
  | ldSPn16 (v : Addr)
  /-- `LD [HL-], A` (R109) -/
  | ldIndHLDecA
  /-- `INC SP` (R122) -/
  | incSP
  /-- `INC A` (R120) -/
  | incA
  /-- `DEC A` (R121) -/
  | decA
  /-- `LD A, n8` (R100) -/
  | ldAn8 (n : Byte)
  /-- `LD B, [HL]` (R104) -/
  | ldBIndHL
  /-- `LD C, [HL]` (R104) -/
  | ldCIndHL
  /-- `LD D, [HL]` (R104) -/
  | ldDIndHL
  /-- `LD E, [HL]` (R104) -/
  | ldEIndHL
  /-- `LD H, [HL]` (R104) -/
  | ldHIndHL
  /-- `LD L, [HL]` (R104) -/
  | ldLIndHL
  /-- `LD [HL], B` (R107) -/
  | ldIndHLB
  /-- `LD [HL], C` (R107) -/
  | ldIndHLC
  /-- `LD [HL], D` (R107) -/
  | ldIndHLD
  /-- `LD [HL], E` (R107) -/
  | ldIndHLE
  /-- `LD [HL], H` (R107) -/
  | ldIndHLH
  /-- `LD [HL], L` (R107) -/
  | ldIndHLL
  /-- `LD [HL], A` (R107) -/
  | ldIndHLA
  /-- `LD A, [HL]` (R104) -/
  | ldAIndHL
  /-- `ADD A, [HL]` (R140) -/
  | addAIndHL
  /-- `XOR A, A` (R141) -/
  | xorAA
  /-- `CP A, [HL]` (R143) -/
  | cpAIndHL
  /-- `POP BC` (R161) -/
  | popBC
  /-- `PUSH BC` (R160) -/
  | pushBC
  /-- `RET` (R152) -/
  | ret
  /-- `PREFIX CB` (R170): the prefix byte alone, whose execution fetches the extended opcode and runs it. -/
  | prefixCB
  /-- `CALL a16` (R151) -/
  | callA16 (t : Addr)
  /-- `POP DE` (R161) -/
  | popDE
  /-- `PUSH DE` (R160) -/
  | pushDE
  /-- `LDH [a8], A` (R110) -/
  | ldhIndA8A (n : Byte)
  /-- `POP HL` (R161) -/
  | popHL
  /-- `LDH [C], A` (R111) -/
  | ldhIndCA
  /-- `PUSH HL` (R160) -/
  | pushHL
  /-- `CP A, n8` (R142) -/
  | cpAn8 (n : Byte)
  /-- `RLC B` (R131) -/
  | rlcB
  /-- `RLC C` (R131) -/
  | rlcC
  /-- `RLC D` (R131) -/
  | rlcD
  /-- `RLC E` (R131) -/
  | rlcE
  /-- `RLC H` (R131) -/
  | rlcH
  /-- `RLC L` (R131) -/
  | rlcL
  /-- `RLC A` (R131) -/
  | rlcA
  /-- `BIT 0, B` (R171) -/
  | bit0B
  /-- `BIT 0, C` (R171) -/
  | bit0C
  /-- `BIT 0, D` (R171) -/
  | bit0D
  /-- `BIT 0, E` (R171) -/
  | bit0E
  /-- `BIT 0, H` (R171) -/
  | bit0H
  /-- `BIT 0, L` (R171) -/
  | bit0L
  /-- `BIT 0, A` (R171) -/
  | bit0A
  /-- `BIT 1, B` (R171) -/
  | bit1B
  /-- `BIT 1, C` (R171) -/
  | bit1C
  /-- `BIT 1, D` (R171) -/
  | bit1D
  /-- `BIT 1, E` (R171) -/
  | bit1E
  /-- `BIT 1, H` (R171) -/
  | bit1H
  /-- `BIT 1, L` (R171) -/
  | bit1L
  /-- `BIT 1, A` (R171) -/
  | bit1A
  /-- `BIT 2, B` (R171) -/
  | bit2B
  /-- `BIT 2, C` (R171) -/
  | bit2C
  /-- `BIT 2, D` (R171) -/
  | bit2D
  /-- `BIT 2, E` (R171) -/
  | bit2E
  /-- `BIT 2, H` (R171) -/
  | bit2H
  /-- `BIT 2, L` (R171) -/
  | bit2L
  /-- `BIT 2, A` (R171) -/
  | bit2A
  /-- `BIT 3, B` (R171) -/
  | bit3B
  /-- `BIT 3, C` (R171) -/
  | bit3C
  /-- `BIT 3, D` (R171) -/
  | bit3D
  /-- `BIT 3, E` (R171) -/
  | bit3E
  /-- `BIT 3, H` (R171) -/
  | bit3H
  /-- `BIT 3, L` (R171) -/
  | bit3L
  /-- `BIT 3, A` (R171) -/
  | bit3A
  /-- `BIT 4, B` (R171) -/
  | bit4B
  /-- `BIT 4, C` (R171) -/
  | bit4C
  /-- `BIT 4, D` (R171) -/
  | bit4D
  /-- `BIT 4, E` (R171) -/
  | bit4E
  /-- `BIT 4, H` (R171) -/
  | bit4H
  /-- `BIT 4, L` (R171) -/
  | bit4L
  /-- `BIT 4, A` (R171) -/
  | bit4A
  /-- `BIT 5, B` (R171) -/
  | bit5B
  /-- `BIT 5, C` (R171) -/
  | bit5C
  /-- `BIT 5, D` (R171) -/
  | bit5D
  /-- `BIT 5, E` (R171) -/
  | bit5E
  /-- `BIT 5, H` (R171) -/
  | bit5H
  /-- `BIT 5, L` (R171) -/
  | bit5L
  /-- `BIT 5, A` (R171) -/
  | bit5A
  /-- `BIT 6, B` (R171) -/
  | bit6B
  /-- `BIT 6, C` (R171) -/
  | bit6C
  /-- `BIT 6, D` (R171) -/
  | bit6D
  /-- `BIT 6, E` (R171) -/
  | bit6E
  /-- `BIT 6, H` (R171) -/
  | bit6H
  /-- `BIT 6, L` (R171) -/
  | bit6L
  /-- `BIT 6, A` (R171) -/
  | bit6A
  /-- `BIT 7, B` (R171) -/
  | bit7B
  /-- `BIT 7, C` (R171) -/
  | bit7C
  /-- `BIT 7, D` (R171) -/
  | bit7D
  /-- `BIT 7, E` (R171) -/
  | bit7E
  /-- `BIT 7, H` (R171) -/
  | bit7H
  /-- `BIT 7, L` (R171) -/
  | bit7L
  /-- `BIT 7, A` (R171) -/
  | bit7A
  /-- `(unimplemented primary opcode)` (R201) -/
  | unimplementedPrimary (op : Byte)
  /-- `(unimplemented extended opcode)` (R202) -/
  | unimplementedExtended (x : Byte)
  deriving DecidableEq, Repr

namespace Instr

/-- `LD r, n8` (R100). -/
def ldRN8 : Reg8 → Byte → Instr
  | .a, n => .ldAn8 n
  | .b, n => .ldBn8 n
  | .c, n => .ldCn8 n
  | .d, n => .ldDn8 n
  | .e, n => .ldEn8 n
  | .h, n => .ldHn8 n
  | .l, n => .ldLn8 n

/-- `LD r, [HL]` (R104). -/
def ldRIndHL : Reg8 → Instr
  | .a => .ldAIndHL
  | .b => .ldBIndHL
  | .c => .ldCIndHL
  | .d => .ldDIndHL
  | .e => .ldEIndHL
  | .h => .ldHIndHL
  | .l => .ldLIndHL

/-- `LD [HL], r` (R107). -/
def ldIndHLR : Reg8 → Instr
  | .a => .ldIndHLA
  | .b => .ldIndHLB
  | .c => .ldIndHLC
  | .d => .ldIndHLD
  | .e => .ldIndHLE
  | .h => .ldIndHLH
  | .l => .ldIndHLL

/-- `INC r` (R120). -/
def incR : Reg8 → Instr
  | .a => .incA
  | .b => .incB
  | .c => .incC
  | .d => .incD
  | .e => .incE
  | .h => .incH
  | .l => .incL

/-- `DEC r` (R121). -/
def decR : Reg8 → Instr
  | .a => .decA
  | .b => .decB
  | .c => .decC
  | .d => .decD
  | .e => .decE
  | .h => .decH
  | .l => .decL

/-- `RLC r` (R131). -/
def rlcR : Reg8 → Instr
  | .a => .rlcA
  | .b => .rlcB
  | .c => .rlcC
  | .d => .rlcD
  | .e => .rlcE
  | .h => .rlcH
  | .l => .rlcL

/-- `LD rr, n16` (R101). -/
def ldRRN16 : Reg16 → Addr → Instr
  | .bc, v => .ldBCn16 v
  | .de, v => .ldDEn16 v
  | .hl, v => .ldHLn16 v
  | .sp, v => .ldSPn16 v

/-- `INC rr` (R122). -/
def incRR : Reg16 → Instr
  | .bc => .incBC
  | .de => .incDE
  | .hl => .incHL
  | .sp => .incSP

/-- `PUSH rr` (R160). -/
def pushRR : Pair → Instr
  | .bc => .pushBC
  | .de => .pushDE
  | .hl => .pushHL

/-- `POP rr` (R161). -/
def popRR : Pair → Instr
  | .bc => .popBC
  | .de => .popDE
  | .hl => .popHL

/-- `BIT b, r` (R171): all 56 of them, by bit index and register. -/
def bitBR : Fin 8 → Reg8 → Instr
  | 0, .a => .bit0A
  | 0, .b => .bit0B
  | 0, .c => .bit0C
  | 0, .d => .bit0D
  | 0, .e => .bit0E
  | 0, .h => .bit0H
  | 0, .l => .bit0L
  | 1, .a => .bit1A
  | 1, .b => .bit1B
  | 1, .c => .bit1C
  | 1, .d => .bit1D
  | 1, .e => .bit1E
  | 1, .h => .bit1H
  | 1, .l => .bit1L
  | 2, .a => .bit2A
  | 2, .b => .bit2B
  | 2, .c => .bit2C
  | 2, .d => .bit2D
  | 2, .e => .bit2E
  | 2, .h => .bit2H
  | 2, .l => .bit2L
  | 3, .a => .bit3A
  | 3, .b => .bit3B
  | 3, .c => .bit3C
  | 3, .d => .bit3D
  | 3, .e => .bit3E
  | 3, .h => .bit3H
  | 3, .l => .bit3L
  | 4, .a => .bit4A
  | 4, .b => .bit4B
  | 4, .c => .bit4C
  | 4, .d => .bit4D
  | 4, .e => .bit4E
  | 4, .h => .bit4H
  | 4, .l => .bit4L
  | 5, .a => .bit5A
  | 5, .b => .bit5B
  | 5, .c => .bit5C
  | 5, .d => .bit5D
  | 5, .e => .bit5E
  | 5, .h => .bit5H
  | 5, .l => .bit5L
  | 6, .a => .bit6A
  | 6, .b => .bit6B
  | 6, .c => .bit6C
  | 6, .d => .bit6D
  | 6, .e => .bit6E
  | 6, .h => .bit6H
  | 6, .l => .bit6L
  | 7, .a => .bit7A
  | 7, .b => .bit7B
  | 7, .c => .bit7C
  | 7, .d => .bit7D
  | 7, .e => .bit7E
  | 7, .h => .bit7H
  | 7, .l => .bit7L

end Instr

end Sys2Proof
end

