-- ==== Sys2Proof/Machine/State.lean ====
section
/-! DEFINITION. The state of the block (10_state.md): ten registers and the storage behind the address space, plus the
two things the spec gives to a run and to a Step and not to a register: the parameter `ROTATE_VARIANT` (log 1) and the
failure output of the last Step (log 2). -/

namespace Sys2Proof.Machine

/-- The four flags of F, four independent bits (R16, R17). The low nibble of F is hard-wired zero and is not stored;
`Flags.toByte` in Machine/Flags.lean is F as a byte (R16, D25; log 9). -/
structure Flags where
  z : Bool
  n : Bool
  h : Bool
  c : Bool
  deriving DecidableEq, Repr

/-- Storage as pairs of a logical address and the byte it holds (R21, R23), addresses strictly rising, no pair equal to
what an unlisted address reads as. The regions of R31 do not overlap and cover the space, so a logical address names one
cell of one region. -/
abbrev Memory := List Host.Cell

/-- Which of the two opcode spaces a signalled byte was in (R201, R202). -/
inductive OpcodeSpace where
  | primary
  | extended
  deriving DecidableEq, Repr

/-- The value an `UnimplementedOpcode` signal carries (R200 to R202). -/
structure OpcodeSignal where
  space : OpcodeSpace
  byte  : Byte
  deriving DecidableEq, Repr

/-- The three named failures of the block and no others (R200; D27: no numeric codes). -/
inductive Failure where
  | unimplementedOpcode (sig : OpcodeSignal)
  | addressDecodeFault (addr : Addr)
  | bulkLoadOverflow
  deriving DecidableEq, Repr

/-- The state of the block between two Steps (R25). -/
structure State where
  a : Byte
  f : Flags
  b : Byte
  c : Byte
  d : Byte
  e : Byte
  h : Byte
  l : Byte
  pc : Addr
  sp : Addr
  mem : Memory
  /-- `ROTATE_VARIANT` (R7), constant over a run (log 1). -/
  rotateVariant : RotateVariant
  /-- The failure output of the last Step (R201, R202): an output, read by the driver and by no instruction (log 2). -/
  signal : Option OpcodeSignal
  deriving DecidableEq, Repr

/-- Why the machine stops for good. -/
inductive Fault where
  /-- No region claims the address (R203). Raised by the byte read and the byte write of Machine/Ops.lean; fatal, and
  unreachable with the region table of R31. Safe: a stop, never a value. -/
  | addressDecodeFault (addr : Addr)
  deriving DecidableEq, Repr

/-- Why an instruction has no meaning. -/
inductive Refusal where
  /-- The instruction has no meaning in this model yet; raised by an arm of `exec` alone. Safe: a stop. No arm raises it. -/
  | notModelled (mnemonic : String)
  deriving DecidableEq, Repr

/-- What a meaning answers. -/
abbrev Out := Host.Outcome State Fault Refusal

/-- The state after reset (R26, R27, R240, R243): every register zero, every storage byte zero (nothing is listed), the
default rotate variant of R7, no failure output. `ROMN_IMAGE` and `BOOT_IMAGE` are applied by
`State.initial` (Machine/HostPort.lean), which starts from here. -/
def State.reset : State where
  a := 0
  f := { z := false, n := false, h := false, c := false }
  b := 0
  c := 0
  d := 0
  e := 0
  h := 0
  l := 0
  pc := 0
  sp := 0
  mem := []
  rotateVariant := Config.defaultRotateVariant
  signal := none

end Sys2Proof.Machine
end

