-- ==== Sys2Proof/Machine/Flags.lean ====
section
/-! DEFINITION. The ALU functions with their flag outputs (R123, R132, R144, R145), the bit test (R171), and F as a byte
(R16). -/

namespace Sys2Proof.Machine

/-- `R[F] = Z ++ N ++ H ++ C ++ 0b0000` (10_state.md R16). -/
def Flags.toByte (f : Flags) : Byte :=
  BitVec.ofBool f.z ++ BitVec.ofBool f.n ++ BitVec.ofBool f.h ++ BitVec.ofBool f.c ++ 0#4

/-- The low nibble `v[3:0]` as a number. -/
def lowNibble (v : Byte) : Nat := v.toNat % 16

/-- What `Inc8` and `Dec8` return (R123). -/
structure IncDecResult where
  res : Byte
  z : Bool
  h : Bool
  deriving DecidableEq, Repr

/-- `Inc8` (41_incdec.md R123): H is the carry out of bit 3; the carry out of bit 7 is discarded. -/
def inc8 (v : Byte) : IncDecResult where
  res := v + 1
  z := v + 1 == 0
  h := lowNibble v == 0xF

/-- `Dec8` (R123): H is the borrow from bit 4; the borrow out of bit 7 is discarded. -/
def dec8 (v : Byte) : IncDecResult where
  res := v - 1
  z := v - 1 == 0
  h := lowNibble v == 0x0

/-- What `Add8` returns (R144). -/
structure AddResult where
  res : Byte
  z : Bool
  h : Bool
  c : Bool
  deriving DecidableEq, Repr

/-- `Add8` (43_arith_compare.md R144): the sum is exact, then reduced; H is the carry out of bit 3, C out of bit 7. -/
def add8 (a b : Byte) : AddResult :=
  let sum := a.toNat + b.toNat
  let res := BitVec.ofNat 8 sum
  { res := res
    z := res == 0
    h := decide (lowNibble a + lowNibble b > 0xF)
    c := decide (sum > 0xFF) }

/-- What `Cmp8` returns (R145). -/
structure CmpResult where
  z : Bool
  h : Bool
  c : Bool
  deriving DecidableEq, Repr

/-- `Cmp8` (R145): a subtractor whose result is discarded; H is the borrow from bit 4, C the unsigned borrow. -/
def cmp8 (a b : Byte) : CmpResult where
  z := a == b
  h := decide (lowNibble a < lowNibble b)
  c := decide (a.toNat < b.toNat)

/-- What `RotL` returns (R132): the result and the bit rotated out. -/
structure RotResult where
  res : Byte
  out : Bool
  deriving DecidableEq, Repr

/-- `RotL` (42_rotate.md R132): bit 7 leaves, and bit 0 takes bit 7 (circular) or the old carry (through carry). -/
def rotL (variant : RotateVariant) (v : Byte) (cin : Bool) : RotResult where
  res :=
    match variant with
    | .circular => v.extractLsb' 0 7 ++ v.extractLsb' 7 1
    | .throughCarry => v.extractLsb' 0 7 ++ BitVec.ofBool cin
  out := v.getLsbD 7

/-- The flags of an `INC r` or `DEC r` result; C is kept (R120, R121; D10). -/
def Flags.afterIncDec (f : Flags) (x : IncDecResult) (n : Bool) : Flags :=
  { f with z := x.z, n := n, h := x.h }

/-- The flags of an addition: all four written, N cleared (R140). -/
def Flags.ofAdd (x : AddResult) : Flags where
  z := x.z
  n := false
  h := x.h
  c := x.c

/-- The flags of a comparison: all four written, N set (R142, R143). -/
def Flags.ofCmp (x : CmpResult) : Flags where
  z := x.z
  n := true
  h := x.h
  c := x.c

/-- The flags of a rotate: Z, N and H cleared, C the bit rotated out (R130, R131). -/
def Flags.ofRot (x : RotResult) : Flags where
  z := false
  n := false
  h := false
  c := x.out

/-- The flags of `XOR A,A` (R141): Z set, the rest cleared. -/
def Flags.ofXorAA : Flags where
  z := true
  n := false
  h := false
  c := false

/-- The flags of `BIT b,r` (46_bit_test.md R171): Z set when the tested bit is 0, N cleared, H set, C kept. -/
def Flags.afterBit (f : Flags) (t : Bool) : Flags :=
  { f with z := !t, n := false, h := true }

end Sys2Proof.Machine
end

