-- ==== Sys2Proof/WellFormed.lean ====
section
/-! DEFINITION. Which instruction terms stand for an instruction of the block. Every operand value of an implemented form
is legal (a byte is any byte, a word any word), so the only checks are on the two fallback rows: the byte they carry
must be one of the values that have no implemented variant (30_encoding.md R67, R69). -/

namespace Sys2Proof

/-- Line 1 of the value list of R67. -/
def unimplementedPrimaryValues1 : List Byte :=
  [0x00, 0x07, 0x08, 0x09, 0x0B, 0x0F, 0x10, 0x18, 0x19, 0x1B, 0x1F, 0x27,
   0x28, 0x29, 0x2A, 0x2B, 0x2F, 0x30, 0x34, 0x35, 0x36, 0x37, 0x38, 0x39,
   0x3A, 0x3B, 0x3F]

/-- Line 2 of the value list of R67. -/
def unimplementedPrimaryValues2 : List Byte :=
  [0x40, 0x41, 0x42, 0x43, 0x44, 0x45, 0x47, 0x48, 0x49, 0x4A, 0x4B, 0x4C,
   0x4D, 0x4F, 0x50, 0x51, 0x52, 0x53, 0x54, 0x55, 0x57, 0x58, 0x59, 0x5A,
   0x5B, 0x5C, 0x5D, 0x5F]

/-- Line 3 of the value list of R67. -/
def unimplementedPrimaryValues3 : List Byte :=
  [0x60, 0x61, 0x62, 0x63, 0x64, 0x65, 0x67, 0x68, 0x69, 0x6A, 0x6B, 0x6C,
   0x6D, 0x6F, 0x76, 0x78, 0x79, 0x7A, 0x7B, 0x7C, 0x7D, 0x7F]

/-- Line 4 of the value list of R67. -/
def unimplementedPrimaryValues4 : List Byte :=
  [0x80, 0x81, 0x82, 0x83, 0x84, 0x85, 0x87, 0x88, 0x89, 0x8A, 0x8B, 0x8C,
   0x8D, 0x8E, 0x8F, 0x90, 0x91, 0x92, 0x93, 0x94, 0x95, 0x96, 0x97, 0x98,
   0x99, 0x9A, 0x9B, 0x9C, 0x9D, 0x9E, 0x9F]

/-- Line 5 of the value list of R67. -/
def unimplementedPrimaryValues5 : List Byte :=
  [0xA0, 0xA1, 0xA2, 0xA3, 0xA4, 0xA5, 0xA6, 0xA7, 0xA8, 0xA9, 0xAA, 0xAB,
   0xAC, 0xAD, 0xAE, 0xB0, 0xB1, 0xB2, 0xB3, 0xB4, 0xB5, 0xB6, 0xB7, 0xB8,
   0xB9, 0xBA, 0xBB, 0xBC, 0xBD, 0xBF]

/-- Line 6 of the value list of R67. -/
def unimplementedPrimaryValues6 : List Byte :=
  [0xC0, 0xC2, 0xC3, 0xC4, 0xC6, 0xC7, 0xC8, 0xCA, 0xCC, 0xCE, 0xCF, 0xD0,
   0xD2, 0xD3, 0xD4, 0xD6, 0xD7, 0xD8, 0xD9, 0xDA, 0xDB, 0xDC, 0xDD, 0xDE,
   0xDF]

/-- Line 7 of the value list of R67. -/
def unimplementedPrimaryValues7 : List Byte :=
  [0xE3, 0xE4, 0xE6, 0xE7, 0xE8, 0xE9, 0xEA, 0xEB, 0xEC, 0xED, 0xEE, 0xEF,
   0xF0, 0xF1, 0xF2, 0xF3, 0xF4, 0xF5, 0xF6, 0xF7, 0xF8, 0xF9, 0xFA, 0xFB,
   0xFC, 0xFD, 0xFF]

/-- The 190 primary opcode values with no implemented variant, as R67 lists them. -/
def unimplementedPrimaryValues : List Byte :=
  unimplementedPrimaryValues1 ++ unimplementedPrimaryValues2 ++ unimplementedPrimaryValues3 ++ unimplementedPrimaryValues4 ++ unimplementedPrimaryValues5 ++ unimplementedPrimaryValues6 ++ unimplementedPrimaryValues7

/-- The 193 extended opcode values with no implemented variant, as R69 describes them. -/
def unimplementedExtendedValue (x : Byte) : Bool :=
  let n := x.toNat
  n == 0x06 || (0x08 ≤ n && n ≤ 0x3F) || (0x40 ≤ n && n ≤ 0x7F && n % 8 == 6) || 0x80 ≤ n

/-- A term is well-formed when it stands for an instruction of the block: the fallback rows carry only values with no
implemented variant (R67, R69), and every other row carries any operand (R64). -/
def Instr.wellFormed : Instr → Bool
  | .unimplementedPrimary op => unimplementedPrimaryValues.contains op
  | .unimplementedExtended x => unimplementedExtendedValue x
  | .ldBCn16 _ | .ldIndBCA | .incBC | .incB | .decB | .ldBn8 _ | .ldAIndBC | .incC | .decC | .ldCn8 _
  | .ldDEn16 _ | .ldIndDEA | .incDE | .incD | .decD | .ldDn8 _ | .rla | .ldAIndDE | .incE | .decE | .ldEn8 _
  | .jrNZe8 _ | .ldHLn16 _ | .ldIndHLIncA | .incHL | .incH | .decH | .ldHn8 _ | .incL | .decL | .ldLn8 _
  | .ldSPn16 _ | .ldIndHLDecA | .incSP | .incA | .decA | .ldAn8 _ | .ldBIndHL | .ldCIndHL | .ldDIndHL
  | .ldEIndHL | .ldHIndHL | .ldLIndHL | .ldIndHLB | .ldIndHLC | .ldIndHLD | .ldIndHLE | .ldIndHLH | .ldIndHLL
  | .ldIndHLA | .ldAIndHL | .addAIndHL | .xorAA | .cpAIndHL | .popBC | .pushBC | .ret | .prefixCB
  | .callA16 _ | .popDE | .pushDE | .ldhIndA8A _ | .popHL | .ldhIndCA | .pushHL | .cpAn8 _ | .rlcB | .rlcC
  | .rlcD | .rlcE | .rlcH | .rlcL | .rlcA | .bit0B | .bit0C | .bit0D | .bit0E | .bit0H | .bit0L | .bit0A
  | .bit1B | .bit1C | .bit1D | .bit1E | .bit1H | .bit1L | .bit1A | .bit2B | .bit2C | .bit2D | .bit2E | .bit2H
  | .bit2L | .bit2A | .bit3B | .bit3C | .bit3D | .bit3E | .bit3H | .bit3L | .bit3A | .bit4B | .bit4C | .bit4D
  | .bit4E | .bit4H | .bit4L | .bit4A | .bit5B | .bit5C | .bit5D | .bit5E | .bit5H | .bit5L | .bit5A | .bit6B
  | .bit6C | .bit6D | .bit6E | .bit6H | .bit6L | .bit6A | .bit7B | .bit7C | .bit7D | .bit7E | .bit7H | .bit7L
  | .bit7A => true

end Sys2Proof
end

