-- ==== Sys2Proof/Decode.lean ====
section
/-! DEFINITION. Decoding, total over any list of bytes, and the encoder (30_encoding.md R60 to R73). The two opcode maps are
lists of rows, a row an opcode value and what it selects (R73: "a 256+256-entry (primary + extended) table"), with ONE
fallback for every value that has no row (R67, R69, R72). The byte values are the spec's, which marks them general
knowledge itself (D3, GK1; log 4). -/

namespace Sys2Proof

/-- A 16-bit immediate from its two bytes, low byte first (R64, R41 b). -/
def word16 (lo hi : Byte) : Addr := hi ++ lo

/-- The first byte in memory of a 16-bit immediate (R64). -/
def immLow (v : Addr) : Byte := v.extractLsb' 0 8

/-- The second byte in memory of a 16-bit immediate (R64). -/
def immHigh (v : Addr) : Byte := v.extractLsb' 8 8

/-- What a primary opcode value selects, by format (R63): an instruction with no operand byte, one that takes an operand
byte, one that takes an operand word, or the prefix. -/
inductive PrimaryEntry where
  | op (i : Instr)
  | opN8 (mk : Byte → Instr)
  | opN16 (mk : Addr → Instr)
  | pre

/-- Rows 0x to 1x of the table of R66. -/
def primaryRows01 : List (Byte × PrimaryEntry) :=
  [(0x01, .opN16 .ldBCn16), (0x02, .op .ldIndBCA), (0x03, .op .incBC), (0x04, .op .incB),
   (0x05, .op .decB), (0x06, .opN8 .ldBn8), (0x0A, .op .ldAIndBC), (0x0C, .op .incC), (0x0D, .op .decC),
   (0x0E, .opN8 .ldCn8), (0x11, .opN16 .ldDEn16), (0x12, .op .ldIndDEA), (0x13, .op .incDE),
   (0x14, .op .incD), (0x15, .op .decD), (0x16, .opN8 .ldDn8), (0x17, .op .rla), (0x1A, .op .ldAIndDE),
   (0x1C, .op .incE), (0x1D, .op .decE), (0x1E, .opN8 .ldEn8)]

/-- Rows 2x to 3x of the table of R66. -/
def primaryRows23 : List (Byte × PrimaryEntry) :=
  [(0x20, .opN8 .jrNZe8), (0x21, .opN16 .ldHLn16), (0x22, .op .ldIndHLIncA), (0x23, .op .incHL),
   (0x24, .op .incH), (0x25, .op .decH), (0x26, .opN8 .ldHn8), (0x2C, .op .incL), (0x2D, .op .decL),
   (0x2E, .opN8 .ldLn8), (0x31, .opN16 .ldSPn16), (0x32, .op .ldIndHLDecA), (0x33, .op .incSP),
   (0x3C, .op .incA), (0x3D, .op .decA), (0x3E, .opN8 .ldAn8)]

/-- Rows 4x to 7x of the table of R66. -/
def primaryRows47 : List (Byte × PrimaryEntry) :=
  [(0x46, .op .ldBIndHL), (0x4E, .op .ldCIndHL), (0x56, .op .ldDIndHL), (0x5E, .op .ldEIndHL),
   (0x66, .op .ldHIndHL), (0x6E, .op .ldLIndHL), (0x70, .op .ldIndHLB), (0x71, .op .ldIndHLC),
   (0x72, .op .ldIndHLD), (0x73, .op .ldIndHLE), (0x74, .op .ldIndHLH), (0x75, .op .ldIndHLL),
   (0x77, .op .ldIndHLA), (0x7E, .op .ldAIndHL)]

/-- Rows 8x to Bx of the table of R66. -/
def primaryRows8B : List (Byte × PrimaryEntry) :=
  [(0x86, .op .addAIndHL), (0xAF, .op .xorAA), (0xBE, .op .cpAIndHL)]

/-- Rows Cx to Fx of the table of R66. -/
def primaryRowsCF : List (Byte × PrimaryEntry) :=
  [(0xC1, .op .popBC), (0xC5, .op .pushBC), (0xC9, .op .ret), (0xCB, .pre), (0xCD, .opN16 .callA16),
   (0xD1, .op .popDE), (0xD5, .op .pushDE), (0xE0, .opN8 .ldhIndA8A), (0xE1, .op .popHL),
   (0xE2, .op .ldhIndCA), (0xE5, .op .pushHL), (0xFE, .opN8 .cpAn8)]

/-- The 66 implemented primary opcodes (R66). -/
def primaryRows : List (Byte × PrimaryEntry) :=
  primaryRows01 ++ primaryRows23 ++ primaryRows47 ++ primaryRows8B ++ primaryRowsCF

/-- The primary opcode map, total over the 256 values: a row of R66, or the uniform fallback of R67. -/
def primaryEntry (op : Byte) : PrimaryEntry :=
  match primaryRows.lookup op with
  | some e => e
  | none => .op (.unimplementedPrimary op)

/-- Rows `RLC r` of the map of R68. -/
def extendedRowsRlc : List (Byte × Instr) :=
  [(0x00, .rlcB), (0x01, .rlcC), (0x02, .rlcD), (0x03, .rlcE), (0x04, .rlcH), (0x05, .rlcL), (0x07, .rlcA)]

/-- Rows `BIT b,r` for b in 0 to 3 of the map of R68. -/
def extendedRowsBit03 : List (Byte × Instr) :=
  [(0x40, .bit0B), (0x41, .bit0C), (0x42, .bit0D), (0x43, .bit0E), (0x44, .bit0H), (0x45, .bit0L), (0x47, .bit0A),
   (0x48, .bit1B), (0x49, .bit1C), (0x4A, .bit1D), (0x4B, .bit1E), (0x4C, .bit1H), (0x4D, .bit1L), (0x4F, .bit1A),
   (0x50, .bit2B), (0x51, .bit2C), (0x52, .bit2D), (0x53, .bit2E), (0x54, .bit2H), (0x55, .bit2L), (0x57, .bit2A),
   (0x58, .bit3B), (0x59, .bit3C), (0x5A, .bit3D), (0x5B, .bit3E), (0x5C, .bit3H), (0x5D, .bit3L), (0x5F, .bit3A)]

/-- Rows `BIT b,r` for b in 4 to 7 of the map of R68. -/
def extendedRowsBit47 : List (Byte × Instr) :=
  [(0x60, .bit4B), (0x61, .bit4C), (0x62, .bit4D), (0x63, .bit4E), (0x64, .bit4H), (0x65, .bit4L), (0x67, .bit4A),
   (0x68, .bit5B), (0x69, .bit5C), (0x6A, .bit5D), (0x6B, .bit5E), (0x6C, .bit5H), (0x6D, .bit5L), (0x6F, .bit5A),
   (0x70, .bit6B), (0x71, .bit6C), (0x72, .bit6D), (0x73, .bit6E), (0x74, .bit6H), (0x75, .bit6L), (0x77, .bit6A),
   (0x78, .bit7B), (0x79, .bit7C), (0x7A, .bit7D), (0x7B, .bit7E), (0x7C, .bit7H), (0x7D, .bit7L), (0x7F, .bit7A)]

/-- The 63 implemented extended opcodes (R68). -/
def extendedRows : List (Byte × Instr) :=
  extendedRowsRlc ++ extendedRowsBit03 ++ extendedRowsBit47

/-- The extended opcode map, total over the 256 values: a row of R68, or the uniform fallback of R69. -/
def decodeExtended (x : Byte) : Instr :=
  match extendedRows.lookup x with
  | some i => i
  | none => .unimplementedExtended x

/-- Why a list of bytes holds no whole instruction. Storage never runs out of bytes (16-bit wrap-around, R60), so a Step
never meets either. -/
inductive DecodeError where
  /-- there is no byte at all -/
  | noBytes
  /-- the opcode byte is there and an operand byte is missing -/
  | missingOperand (op : Byte)
  deriving DecidableEq, Repr

/-- The instruction at the head of a list of bytes, and the bytes after it (R62, R63, R70, R71). The byte after `0xCB` is
always an extended opcode; the prefix with no byte after it is `prefixCB` (log 8). -/
def decode : List Byte → Except DecodeError (Instr × List Byte)
  | [] => .error .noBytes
  | op :: rest =>
    match primaryEntry op with
    | .op i => .ok (i, rest)
    | .opN8 mk =>
      match rest with
      | n :: rest' => .ok (mk n, rest')
      | [] => .error (.missingOperand op)
    | .opN16 mk =>
      match rest with
      | lo :: hi :: rest' => .ok (mk (word16 lo hi), rest')
      | _ => .error (.missingOperand op)
    | .pre =>
      match rest with
      | x :: rest' => .ok (decodeExtended x, rest')
      | [] => .ok (.prefixCB, [])

/-- The bytes of an instruction, first byte first (R63, R66, R68). -/
def encode : Instr → List Byte
  | .ldBCn16 v => [0x01, immLow v, immHigh v]
  | .ldIndBCA => [0x02]
  | .incBC => [0x03]
  | .incB => [0x04]
  | .decB => [0x05]
  | .ldBn8 n => [0x06, n]
  | .ldAIndBC => [0x0A]
  | .incC => [0x0C]
  | .decC => [0x0D]
  | .ldCn8 n => [0x0E, n]
  | .ldDEn16 v => [0x11, immLow v, immHigh v]
  | .ldIndDEA => [0x12]
  | .incDE => [0x13]
  | .incD => [0x14]
  | .decD => [0x15]
  | .ldDn8 n => [0x16, n]
  | .rla => [0x17]
  | .ldAIndDE => [0x1A]
  | .incE => [0x1C]
  | .decE => [0x1D]
  | .ldEn8 n => [0x1E, n]
  | .jrNZe8 e => [0x20, e]
  | .ldHLn16 v => [0x21, immLow v, immHigh v]
  | .ldIndHLIncA => [0x22]
  | .incHL => [0x23]
  | .incH => [0x24]
  | .decH => [0x25]
  | .ldHn8 n => [0x26, n]
  | .incL => [0x2C]
  | .decL => [0x2D]
  | .ldLn8 n => [0x2E, n]
  | .ldSPn16 v => [0x31, immLow v, immHigh v]
  | .ldIndHLDecA => [0x32]
  | .incSP => [0x33]
  | .incA => [0x3C]
  | .decA => [0x3D]
  | .ldAn8 n => [0x3E, n]
  | .ldBIndHL => [0x46]
  | .ldCIndHL => [0x4E]
  | .ldDIndHL => [0x56]
  | .ldEIndHL => [0x5E]
  | .ldHIndHL => [0x66]
  | .ldLIndHL => [0x6E]
  | .ldIndHLB => [0x70]
  | .ldIndHLC => [0x71]
  | .ldIndHLD => [0x72]
  | .ldIndHLE => [0x73]
  | .ldIndHLH => [0x74]
  | .ldIndHLL => [0x75]
  | .ldIndHLA => [0x77]
  | .ldAIndHL => [0x7E]
  | .addAIndHL => [0x86]
  | .xorAA => [0xAF]
  | .cpAIndHL => [0xBE]
  | .popBC => [0xC1]
  | .pushBC => [0xC5]
  | .ret => [0xC9]
  | .prefixCB => [0xCB]
  | .callA16 t => [0xCD, immLow t, immHigh t]
  | .popDE => [0xD1]
  | .pushDE => [0xD5]
  | .ldhIndA8A n => [0xE0, n]
  | .popHL => [0xE1]
  | .ldhIndCA => [0xE2]
  | .pushHL => [0xE5]
  | .cpAn8 n => [0xFE, n]
  | .rlcB => [0xCB, 0x00]
  | .rlcC => [0xCB, 0x01]
  | .rlcD => [0xCB, 0x02]
  | .rlcE => [0xCB, 0x03]
  | .rlcH => [0xCB, 0x04]
  | .rlcL => [0xCB, 0x05]
  | .rlcA => [0xCB, 0x07]
  | .bit0B => [0xCB, 0x40]
  | .bit0C => [0xCB, 0x41]
  | .bit0D => [0xCB, 0x42]
  | .bit0E => [0xCB, 0x43]
  | .bit0H => [0xCB, 0x44]
  | .bit0L => [0xCB, 0x45]
  | .bit0A => [0xCB, 0x47]
  | .bit1B => [0xCB, 0x48]
  | .bit1C => [0xCB, 0x49]
  | .bit1D => [0xCB, 0x4A]
  | .bit1E => [0xCB, 0x4B]
  | .bit1H => [0xCB, 0x4C]
  | .bit1L => [0xCB, 0x4D]
  | .bit1A => [0xCB, 0x4F]
  | .bit2B => [0xCB, 0x50]
  | .bit2C => [0xCB, 0x51]
  | .bit2D => [0xCB, 0x52]
  | .bit2E => [0xCB, 0x53]
  | .bit2H => [0xCB, 0x54]
  | .bit2L => [0xCB, 0x55]
  | .bit2A => [0xCB, 0x57]
  | .bit3B => [0xCB, 0x58]
  | .bit3C => [0xCB, 0x59]
  | .bit3D => [0xCB, 0x5A]
  | .bit3E => [0xCB, 0x5B]
  | .bit3H => [0xCB, 0x5C]
  | .bit3L => [0xCB, 0x5D]
  | .bit3A => [0xCB, 0x5F]
  | .bit4B => [0xCB, 0x60]
  | .bit4C => [0xCB, 0x61]
  | .bit4D => [0xCB, 0x62]
  | .bit4E => [0xCB, 0x63]
  | .bit4H => [0xCB, 0x64]
  | .bit4L => [0xCB, 0x65]
  | .bit4A => [0xCB, 0x67]
  | .bit5B => [0xCB, 0x68]
  | .bit5C => [0xCB, 0x69]
  | .bit5D => [0xCB, 0x6A]
  | .bit5E => [0xCB, 0x6B]
  | .bit5H => [0xCB, 0x6C]
  | .bit5L => [0xCB, 0x6D]
  | .bit5A => [0xCB, 0x6F]
  | .bit6B => [0xCB, 0x70]
  | .bit6C => [0xCB, 0x71]
  | .bit6D => [0xCB, 0x72]
  | .bit6E => [0xCB, 0x73]
  | .bit6H => [0xCB, 0x74]
  | .bit6L => [0xCB, 0x75]
  | .bit6A => [0xCB, 0x77]
  | .bit7B => [0xCB, 0x78]
  | .bit7C => [0xCB, 0x79]
  | .bit7D => [0xCB, 0x7A]
  | .bit7E => [0xCB, 0x7B]
  | .bit7H => [0xCB, 0x7C]
  | .bit7L => [0xCB, 0x7D]
  | .bit7A => [0xCB, 0x7F]
  | .unimplementedPrimary op => [op]
  | .unimplementedExtended x => [0xCB, x]

/-- The length in bytes, by format (R63 and the "bytes" column of R66; `PREFIX CB` by itself is "1 (+1)"). -/
def Instr.length : Instr → Nat
  | .ldIndBCA | .incBC | .incB | .decB | .ldAIndBC | .incC | .decC | .ldIndDEA | .incDE | .incD | .decD
  | .rla | .ldAIndDE | .incE | .decE | .ldIndHLIncA | .incHL | .incH | .decH | .incL | .decL | .ldIndHLDecA
  | .incSP | .incA | .decA | .ldBIndHL | .ldCIndHL | .ldDIndHL | .ldEIndHL | .ldHIndHL | .ldLIndHL
  | .ldIndHLB | .ldIndHLC | .ldIndHLD | .ldIndHLE | .ldIndHLH | .ldIndHLL | .ldIndHLA | .ldAIndHL
  | .addAIndHL | .xorAA | .cpAIndHL | .popBC | .pushBC | .ret | .prefixCB | .popDE | .pushDE | .popHL
  | .ldhIndCA | .pushHL | .unimplementedPrimary _ => 1
  | .ldBn8 _ | .ldCn8 _ | .ldDn8 _ | .ldEn8 _ | .jrNZe8 _ | .ldHn8 _ | .ldLn8 _ | .ldAn8 _ | .ldhIndA8A _
  | .cpAn8 _ | .rlcB | .rlcC | .rlcD | .rlcE | .rlcH | .rlcL | .rlcA | .bit0B | .bit0C | .bit0D | .bit0E
  | .bit0H | .bit0L | .bit0A | .bit1B | .bit1C | .bit1D | .bit1E | .bit1H | .bit1L | .bit1A | .bit2B | .bit2C
  | .bit2D | .bit2E | .bit2H | .bit2L | .bit2A | .bit3B | .bit3C | .bit3D | .bit3E | .bit3H | .bit3L | .bit3A
  | .bit4B | .bit4C | .bit4D | .bit4E | .bit4H | .bit4L | .bit4A | .bit5B | .bit5C | .bit5D | .bit5E | .bit5H
  | .bit5L | .bit5A | .bit6B | .bit6C | .bit6D | .bit6E | .bit6H | .bit6L | .bit6A | .bit7B | .bit7C | .bit7D
  | .bit7E | .bit7H | .bit7L | .bit7A | .unimplementedExtended _ => 2
  | .ldBCn16 _ | .ldDEn16 _ | .ldHLn16 _ | .ldSPn16 _ | .callA16 _ => 3

/-- The bytes of a row's number as spec/opcode_table.json numbers it: bits 7..0 are the first byte, a later byte's bits
count on from it. Every access is one byte wide (R43), so a word of the table is a byte. -/
def tableBytes (nbits w : Nat) : List Byte :=
  (List.range ((nbits + 7) / 8)).map fun k => BitVec.ofNat 8 (w / 256 ^ k)

/-- The instruction the decoder reads from those bytes; where the table gives an operand no bits, its bytes are zero. -/
def decodeTableWord (nbits w : Nat) : Option Instr :=
  match tableBytes nbits w with
  | [] => none
  | bytes =>
    match decode bytes with
    | .ok (i, _) => some i
    | .error _ =>
      match decode (bytes ++ [0, 0]) with
      | .ok (i, _) => some i
      | .error _ => none

end Sys2Proof
end

