-- ==== Sys2Proof/Machine/AddressMap.lean ====
section
/-! DEFINITION. The address-space decoder (20_memory.md R31, R32): twelve fixed regions, the region that claims an
address, and the offset in it. -/

namespace Sys2Proof.Machine

/-- The twelve regions of R31, in the order of its rows. -/
inductive Region where
  | romBank0 | romBankN | videoRam | externalRam | workRam1 | workRam2 | echoRam | oam | unusable | ioRegisters
  | highRam | interruptEnable
  deriving DecidableEq, Repr

/-- The first logical address of a region (R31). -/
def Region.first : Region → Nat
  | .romBank0 => 0x0000
  | .romBankN => 0x4000
  | .videoRam => 0x8000
  | .externalRam => 0xA000
  | .workRam1 => 0xC000
  | .workRam2 => 0xD000
  | .echoRam => 0xE000
  | .oam => 0xFE00
  | .unusable => 0xFEA0
  | .ioRegisters => 0xFF00
  | .highRam => 0xFF80
  | .interruptEnable => 0xFFFF

/-- The size of a region in bytes (R31, R23). -/
def Region.size : Region → Nat
  | .romBank0 => 16384
  | .romBankN => 16384
  | .videoRam => 8192
  | .externalRam => 8192
  | .workRam1 => 4096
  | .workRam2 => 4096
  | .echoRam => 7680
  | .oam => 160
  | .unusable => 96
  | .ioRegisters => 128
  | .highRam => 127
  | .interruptEnable => 1

/-- The comparison chain of R32. `none` is its fall-through case, which R203 makes the fatal `AddressDecodeFault`. -/
def region (addr : Addr) : Option Region :=
  let n := addr.toNat
  if n ≤ 0x3FFF then some .romBank0
  else if 0x4000 ≤ n ∧ n ≤ 0x7FFF then some .romBankN
  else if 0x8000 ≤ n ∧ n ≤ 0x9FFF then some .videoRam
  else if 0xA000 ≤ n ∧ n ≤ 0xBFFF then some .externalRam
  else if 0xC000 ≤ n ∧ n ≤ 0xCFFF then some .workRam1
  else if 0xD000 ≤ n ∧ n ≤ 0xDFFF then some .workRam2
  else if 0xE000 ≤ n ∧ n ≤ 0xFDFF then some .echoRam
  else if 0xFE00 ≤ n ∧ n ≤ 0xFE9F then some .oam
  else if 0xFEA0 ≤ n ∧ n ≤ 0xFEFF then some .unusable
  else if 0xFF00 ≤ n ∧ n ≤ 0xFF7F then some .ioRegisters
  else if 0xFF80 ≤ n ∧ n ≤ 0xFFFE then some .highRam
  else if n = 0xFFFF then some .interruptEnable
  else none

/-- `Offset(addr) = addr - first(Region(addr))` (R32). -/
def offset (r : Region) (addr : Addr) : Nat := addr.toNat - r.first

/-- The storage cell `store[r][off]` (R33): cells are keyed by the logical address of their region's first byte plus the
offset. No two regions share a cell, so Echo RAM mirrors nothing (R37). -/
def Region.cell (r : Region) (off : Nat) : Nat := r.first + off

end Sys2Proof.Machine
end

