-- ==== Sys2Proof/Machine/Ops.lean ====
section
/-! DEFINITION. The named operations over storage and registers: the byte read and write every access goes through, the
fetches, the register and pair accessors, the stack moves, and the one failure signal an instruction can make.
The block has no trap entry and no trap return (60_exceptions.md R211, R212): `signalUnimplemented` is all there
is in place of taking an exception. -/

namespace Sys2Proof.Machine

/-- What an unlisted address reads as: the reset value of every storage byte (10_state.md R27). -/
def Memory.unlisted : Byte := 0

/-- The canonical form: addresses strictly rising and inside the 16-bit space, and no pair that an absent one would
stand for. -/
abbrev Memory.wf (m : Memory) : Prop :=
  List.Pairwise (fun x y => x.1 < y.1) m ∧ ∀ x ∈ m, x.1 < 65536 ∧ x.2 ≠ Memory.unlisted

/-- The byte at a cell (R33). -/
def Memory.read : Memory → Nat → Byte
  | [], _ => Memory.unlisted
  | (k, v) :: rest, key => if k = key then v else Memory.read rest key

/-- Storage with no pair for a cell. -/
def Memory.erase : Memory → Nat → Memory
  | [], _ => []
  | (k, v) :: rest, key => if k = key then Memory.erase rest key else (k, v) :: Memory.erase rest key

/-- Storage with a pair put before the first larger address. -/
def Memory.insert : Memory → Nat → Byte → Memory
  | [], key, v => [(key, v)]
  | (k, w) :: rest, key, v => if key < k then (key, v) :: (k, w) :: rest else (k, w) :: Memory.insert rest key v

/-- Storage after one byte is written (R34). -/
def Memory.write (m : Memory) (key : Nat) (v : Byte) : Memory :=
  if v = Memory.unlisted then Memory.erase m key else Memory.insert (Memory.erase m key) key v

/-- Storage after bytes are written at consecutive cells from `key` upward (R50, R241). -/
def Memory.writeAll : Memory → Nat → List Byte → Memory
  | m, _, [] => m
  | m, key, v :: vs => Memory.writeAll (Memory.write m key v) (key + 1) vs

/-- The byte a logical address holds: what `MemRead` returns, said without the decoder. -/
def State.byteAt (s : State) (addr : Addr) : Byte := s.mem.read addr.toNat

/-- `MemRead(addr, 1)` (R33), handing the byte to what comes next; an address no region claims is the fatal fault of
R203. -/
def memRead (addr : Addr) (s : State) (k : Byte → Out) : Out :=
  match region addr with
  | some r => k (s.mem.read (r.cell (offset r addr)))
  | none => .fault (.addressDecodeFault addr)

/-- `MemWrite(addr, 1, v)` (R34), handing the new state to what comes next. -/
def memWrite (addr : Addr) (v : Byte) (s : State) (k : State → Out) : Out :=
  match region addr with
  | some r => k { s with mem := s.mem.write (r.cell (offset r addr)) v }
  | none => .fault (.addressDecodeFault addr)

/-- `Fetch8()` (30_encoding.md R60): one byte at PC, then PC advances by 1 modulo 2^16. -/
def fetch8 (s : State) (k : Byte → State → Out) : Out :=
  memRead s.pc s fun b => k b { s with pc := s.pc + 1 }

/-- `Fetch16()` (R64): two fetches, low byte first. -/
def fetch16 (s : State) (k : Addr → State → Out) : Out :=
  fetch8 s fun lo s1 => fetch8 s1 fun hi s2 => k (word16 lo hi) s2

/-- `R[r]` (00_scope.md section 5). -/
def State.reg8 (s : State) : Reg8 → Byte
  | .a => s.a
  | .b => s.b
  | .c => s.c
  | .d => s.d
  | .e => s.e
  | .h => s.h
  | .l => s.l

/-- `R[r] <- v`. -/
def State.setReg8 (s : State) (r : Reg8) (v : Byte) : State :=
  match r with
  | .a => { s with a := v }
  | .b => { s with b := v }
  | .c => { s with c := v }
  | .d => { s with d := v }
  | .e => { s with e := v }
  | .h => { s with h := v }
  | .l => { s with l := v }

/-- `v[15:8]`. -/
def highByte (v : Addr) : Byte := v.extractLsb' 8 8

/-- `v[7:0]`. -/
def lowByte (v : Addr) : Byte := v.extractLsb' 0 8

/-- `RR[p]`, the high register first (10_state.md R11). -/
def State.pair (s : State) : Pair → Addr
  | .bc => s.b ++ s.c
  | .de => s.d ++ s.e
  | .hl => s.h ++ s.l

/-- `RR[p] <- v`: both halves (R11). -/
def State.setPair (s : State) (p : Pair) (v : Addr) : State :=
  match p with
  | .bc => { s with b := highByte v, c := lowByte v }
  | .de => { s with d := highByte v, e := lowByte v }
  | .hl => { s with h := highByte v, l := lowByte v }

/-- The value of a 16-bit operand `rr` of R101 and R122: a pair, or SP. -/
def State.reg16 (s : State) : Reg16 → Addr
  | .bc => s.pair .bc
  | .de => s.pair .de
  | .hl => s.pair .hl
  | .sp => s.sp

/-- A write of a 16-bit operand `rr` of R101 and R122. -/
def State.setReg16 (s : State) (r : Reg16) (v : Addr) : State :=
  match r with
  | .bc => s.setPair .bc v
  | .de => s.setPair .de v
  | .hl => s.setPair .hl v
  | .sp => { s with sp := v }

/-- The push of R160 and R151: SP down, high byte, SP down, low byte (R15; D9). -/
def push16 (v : Addr) (s : State) (k : State → Out) : Out :=
  let s1 := { s with sp := s.sp - 1 }
  memWrite s1.sp (highByte v) s1 fun s2 =>
    let s3 := { s2 with sp := s2.sp - 1 }
    memWrite s3.sp (lowByte v) s3 k

/-- The pop of R161 and R152: low byte, SP up, high byte, SP up. -/
def pop16 (s : State) (k : Addr → State → Out) : Out :=
  memRead s.sp s fun lo =>
    let s1 := { s with sp := s.sp + 1 }
    memRead s1.sp s1 fun hi => k (hi ++ lo) { s1 with sp := s1.sp + 1 }

/-- `signal UnimplementedOpcode(space, byte)` (60_exceptions.md R201, R202): the failure output of this Step, and no other
effect; the run goes on. -/
def signalUnimplemented (space : OpcodeSpace) (byte : Byte) (s : State) : Out :=
  .next { s with signal := some { space := space, byte := byte } }

/-- A Step starts with no failure output: the output belongs to one Step and is not stored (R25). -/
def State.clearSignal (s : State) : State := { s with signal := none }

/-- Bytes placed from outside at consecutive logical addresses modulo 2^16. -/
def placeBytes (s : State) (addr : Addr) : List Byte → State
  | [] => s
  | v :: vs => placeBytes { s with mem := s.mem.write addr.toNat v } (addr + 1) vs

end Sys2Proof.Machine
end

