-- ==== Sys2Proof/Machine/Operands.lean ====
section
/-! DEFINITION. The operand forms of the instruction set: the addresses of the memory operands (20_memory.md R22) and the
displacement. Register and pair operands are `State.reg8`, `State.pair` and `State.reg16`; immediates come from
`fetch8` and `fetch16`. -/

namespace Sys2Proof.Machine

/-- The address of `[BC]`, `[DE]` or `[HL]` (40_loads.md R102 to R107): the pair's value. -/
def State.indirect (s : State) (p : Pair) : Addr := s.pair p

/-- `0xFF00 | zext_16(n)`: the address of `LDH [a8],A` and `LDH [C],A` (R64, R110, R111). -/
def highPage (n : Byte) : Addr := 0xFF00#16 ||| n.zeroExtend 16

/-- `sext_16(e)`: a displacement byte as a signed 16-bit value (R64). -/
def signExtend16 (e : Byte) : Addr := e.signExtend 16

/-- The target of a taken relative jump, from the PC that has passed the displacement (R150). -/
def relativeTarget (pc : Addr) (e : Byte) : Addr := pc + signExtend16 e

end Sys2Proof.Machine
end

