-- ==== Sys2Proof/Machine/Arith.lean ====
section
/-! DEFINITION. Add, exclusive-or, compare (43_arith_compare.md R140 to R145). -/

namespace Sys2Proof.Machine

/-- `CP A, x` (R142, R143): the four flags of `A - x`; A is not written. -/
def compareA (v : Byte) (s : State) : Out := .next { s with f := Flags.ofCmp (cmp8 s.a v) }

/-- `ADD A, [HL]` (R140). -/
def execAddAIndHL (s : State) : Out :=
  memRead (s.indirect .hl) s fun v =>
    let x := add8 s.a v
    .next { s with a := x.res, f := Flags.ofAdd x }

/-- `XOR A, A` (R141). -/
def execXorAA (s : State) : Out := .next { s with a := s.a ^^^ s.a, f := Flags.ofXorAA }

/-- `CP A, n8` (R142). -/
def execCpAn8 (n : Byte) (s : State) : Out := compareA n s

/-- `CP A, [HL]` (R143). -/
def execCpAIndHL (s : State) : Out := memRead (s.indirect .hl) s fun v => compareA v s

end Sys2Proof.Machine
end

