-- ==== Sys2Proof/Machine/BitTest.lean ====
section
/-! DEFINITION. Bit test (46_bit_test.md R171), bit 7 the most significant. -/

namespace Sys2Proof.Machine

/-- `BIT b, r` (R171): the register is only read. -/
def testBit (b : Nat) (r : Reg8) (s : State) : Out :=
  .next { s with f := s.f.afterBit ((s.reg8 r).getLsbD b) }

/-- `BIT 0, B` (R171). -/
def execBit0B (s : State) : Out := testBit 0 .b s

/-- `BIT 0, C` (R171). -/
def execBit0C (s : State) : Out := testBit 0 .c s

/-- `BIT 0, D` (R171). -/
def execBit0D (s : State) : Out := testBit 0 .d s

/-- `BIT 0, E` (R171). -/
def execBit0E (s : State) : Out := testBit 0 .e s

/-- `BIT 0, H` (R171). -/
def execBit0H (s : State) : Out := testBit 0 .h s

/-- `BIT 0, L` (R171). -/
def execBit0L (s : State) : Out := testBit 0 .l s

/-- `BIT 0, A` (R171). -/
def execBit0A (s : State) : Out := testBit 0 .a s

/-- `BIT 1, B` (R171). -/
def execBit1B (s : State) : Out := testBit 1 .b s

/-- `BIT 1, C` (R171). -/
def execBit1C (s : State) : Out := testBit 1 .c s

/-- `BIT 1, D` (R171). -/
def execBit1D (s : State) : Out := testBit 1 .d s

/-- `BIT 1, E` (R171). -/
def execBit1E (s : State) : Out := testBit 1 .e s

/-- `BIT 1, H` (R171). -/
def execBit1H (s : State) : Out := testBit 1 .h s

/-- `BIT 1, L` (R171). -/
def execBit1L (s : State) : Out := testBit 1 .l s

/-- `BIT 1, A` (R171). -/
def execBit1A (s : State) : Out := testBit 1 .a s

/-- `BIT 2, B` (R171). -/
def execBit2B (s : State) : Out := testBit 2 .b s

/-- `BIT 2, C` (R171). -/
def execBit2C (s : State) : Out := testBit 2 .c s

/-- `BIT 2, D` (R171). -/
def execBit2D (s : State) : Out := testBit 2 .d s

/-- `BIT 2, E` (R171). -/
def execBit2E (s : State) : Out := testBit 2 .e s

/-- `BIT 2, H` (R171). -/
def execBit2H (s : State) : Out := testBit 2 .h s

/-- `BIT 2, L` (R171). -/
def execBit2L (s : State) : Out := testBit 2 .l s

/-- `BIT 2, A` (R171). -/
def execBit2A (s : State) : Out := testBit 2 .a s

/-- `BIT 3, B` (R171). -/
def execBit3B (s : State) : Out := testBit 3 .b s

/-- `BIT 3, C` (R171). -/
def execBit3C (s : State) : Out := testBit 3 .c s

/-- `BIT 3, D` (R171). -/
def execBit3D (s : State) : Out := testBit 3 .d s

/-- `BIT 3, E` (R171). -/
def execBit3E (s : State) : Out := testBit 3 .e s

/-- `BIT 3, H` (R171). -/
def execBit3H (s : State) : Out := testBit 3 .h s

/-- `BIT 3, L` (R171). -/
def execBit3L (s : State) : Out := testBit 3 .l s

/-- `BIT 3, A` (R171). -/
def execBit3A (s : State) : Out := testBit 3 .a s

/-- `BIT 4, B` (R171). -/
def execBit4B (s : State) : Out := testBit 4 .b s

/-- `BIT 4, C` (R171). -/
def execBit4C (s : State) : Out := testBit 4 .c s

/-- `BIT 4, D` (R171). -/
def execBit4D (s : State) : Out := testBit 4 .d s

/-- `BIT 4, E` (R171). -/
def execBit4E (s : State) : Out := testBit 4 .e s

/-- `BIT 4, H` (R171). -/
def execBit4H (s : State) : Out := testBit 4 .h s

/-- `BIT 4, L` (R171). -/
def execBit4L (s : State) : Out := testBit 4 .l s

/-- `BIT 4, A` (R171). -/
def execBit4A (s : State) : Out := testBit 4 .a s

/-- `BIT 5, B` (R171). -/
def execBit5B (s : State) : Out := testBit 5 .b s

/-- `BIT 5, C` (R171). -/
def execBit5C (s : State) : Out := testBit 5 .c s

/-- `BIT 5, D` (R171). -/
def execBit5D (s : State) : Out := testBit 5 .d s

/-- `BIT 5, E` (R171). -/
def execBit5E (s : State) : Out := testBit 5 .e s

/-- `BIT 5, H` (R171). -/
def execBit5H (s : State) : Out := testBit 5 .h s

/-- `BIT 5, L` (R171). -/
def execBit5L (s : State) : Out := testBit 5 .l s

/-- `BIT 5, A` (R171). -/
def execBit5A (s : State) : Out := testBit 5 .a s

/-- `BIT 6, B` (R171). -/
def execBit6B (s : State) : Out := testBit 6 .b s

/-- `BIT 6, C` (R171). -/
def execBit6C (s : State) : Out := testBit 6 .c s

/-- `BIT 6, D` (R171). -/
def execBit6D (s : State) : Out := testBit 6 .d s

/-- `BIT 6, E` (R171). -/
def execBit6E (s : State) : Out := testBit 6 .e s

/-- `BIT 6, H` (R171). -/
def execBit6H (s : State) : Out := testBit 6 .h s

/-- `BIT 6, L` (R171). -/
def execBit6L (s : State) : Out := testBit 6 .l s

/-- `BIT 6, A` (R171). -/
def execBit6A (s : State) : Out := testBit 6 .a s

/-- `BIT 7, B` (R171). -/
def execBit7B (s : State) : Out := testBit 7 .b s

/-- `BIT 7, C` (R171). -/
def execBit7C (s : State) : Out := testBit 7 .c s

/-- `BIT 7, D` (R171). -/
def execBit7D (s : State) : Out := testBit 7 .d s

/-- `BIT 7, E` (R171). -/
def execBit7E (s : State) : Out := testBit 7 .e s

/-- `BIT 7, H` (R171). -/
def execBit7H (s : State) : Out := testBit 7 .h s

/-- `BIT 7, L` (R171). -/
def execBit7L (s : State) : Out := testBit 7 .l s

/-- `BIT 7, A` (R171). -/
def execBit7A (s : State) : Out := testBit 7 .a s

end Sys2Proof.Machine
end

