-- ==== Sys2Proof/Machine/Control.lean ====
section
/-! DEFINITION. Control transfer (44_control_flow.md R150 to R152). PC is past the operand bytes when a meaning runs
(R14, R60; log 7): it is the base of the relative jump and the return address of the call. -/

namespace Sys2Proof.Machine

/-- `JR NZ, e8` (R150). -/
def execJrNZe8 (e : Byte) (s : State) : Out :=
  .next (if s.f.z then s else { s with pc := relativeTarget s.pc e })

/-- `CALL a16` (R151). -/
def execCallA16 (t : Addr) (s : State) : Out := push16 s.pc s fun s1 => .next { s1 with pc := t }

/-- `RET` (R152). -/
def execRet (s : State) : Out := pop16 s fun t s1 => .next { s1 with pc := t }

end Sys2Proof.Machine
end

