-- ==== Sys2Proof/Machine/IncDec.lean ====
section
/-! DEFINITION. Increment and decrement (41_incdec.md R120 to R123). -/

namespace Sys2Proof.Machine

/-- `INC r` (R120): the register, Z, N = 0, H; C is kept. -/
def incReg8 (r : Reg8) (s : State) : Out :=
  let x := inc8 (s.reg8 r)
  .next { s.setReg8 r x.res with f := s.f.afterIncDec x false }

/-- `DEC r` (R121): the register, Z, N = 1, H; C is kept. -/
def decReg8 (r : Reg8) (s : State) : Out :=
  let x := dec8 (s.reg8 r)
  .next { s.setReg8 r x.res with f := s.f.afterIncDec x true }

/-- `INC rr` (R122): modulo 2^16, no flag. -/
def incReg16 (r : Reg16) (s : State) : Out := .next (s.setReg16 r (s.reg16 r + 1))

/-- `INC B` (R120). -/
def execIncB (s : State) : Out := incReg8 .b s

/-- `INC C` (R120). -/
def execIncC (s : State) : Out := incReg8 .c s

/-- `INC D` (R120). -/
def execIncD (s : State) : Out := incReg8 .d s

/-- `INC E` (R120). -/
def execIncE (s : State) : Out := incReg8 .e s

/-- `INC H` (R120). -/
def execIncH (s : State) : Out := incReg8 .h s

/-- `INC L` (R120). -/
def execIncL (s : State) : Out := incReg8 .l s

/-- `INC A` (R120). -/
def execIncA (s : State) : Out := incReg8 .a s

/-- `DEC B` (R121). -/
def execDecB (s : State) : Out := decReg8 .b s

/-- `DEC C` (R121). -/
def execDecC (s : State) : Out := decReg8 .c s

/-- `DEC D` (R121). -/
def execDecD (s : State) : Out := decReg8 .d s

/-- `DEC E` (R121). -/
def execDecE (s : State) : Out := decReg8 .e s

/-- `DEC H` (R121). -/
def execDecH (s : State) : Out := decReg8 .h s

/-- `DEC L` (R121). -/
def execDecL (s : State) : Out := decReg8 .l s

/-- `DEC A` (R121). -/
def execDecA (s : State) : Out := decReg8 .a s

/-- `INC BC` (R122). -/
def execIncBC (s : State) : Out := incReg16 .bc s

/-- `INC DE` (R122). -/
def execIncDE (s : State) : Out := incReg16 .de s

/-- `INC HL` (R122). -/
def execIncHL (s : State) : Out := incReg16 .hl s

/-- `INC SP` (R122). -/
def execIncSP (s : State) : Out := incReg16 .sp s

end Sys2Proof.Machine
end

