-- ==== Sys2Proof/Machine/Loads.lean ====
section
/-! DEFINITION. Loads and stores (40_loads.md R100 to R111). Operand bytes have been fetched when a meaning runs, so PC
already points past the instruction (log 7). -/

namespace Sys2Proof.Machine

/-- `LD r, n8` (R100): the operand byte into a register; no flag. -/
def loadImm8 (r : Reg8) (n : Byte) (s : State) : Out := .next (s.setReg8 r n)

/-- `LD rr, n16` (R101): the operand word into a 16-bit register, both halves; no flag. -/
def loadImm16 (r : Reg16) (v : Addr) (s : State) : Out := .next (s.setReg16 r v)

/-- `LD r, [rr]` (R102 to R104): the address is read before the register is written; no flag. -/
def loadIndirect (r : Reg8) (p : Pair) (s : State) : Out :=
  memRead (s.indirect p) s fun v => .next (s.setReg8 r v)

/-- `LD [rr], r` (R105 to R107): a register's byte to memory; no register, no flag. -/
def storeIndirect (p : Pair) (r : Reg8) (s : State) : Out :=
  memWrite (s.indirect p) (s.reg8 r) s .next

/-- `LD [HL+], A` and `LD [HL-], A` (R108, R109): the store uses HL before the update; no flag. -/
def storeAndUpdateHL (update : Addr → Addr) (s : State) : Out :=
  memWrite (s.indirect .hl) s.a s fun s1 => .next (s1.setPair .hl (update (s.indirect .hl)))

/-- The stores to page `0xFF00` (R110, R111): A at `0xFF00 | n`; no register, no flag. -/
def storeHighPage (n : Byte) (s : State) : Out :=
  memWrite (highPage n) s.a s .next

/-- `LD B, n8` (R100). -/
def execLdBn8 (n : Byte) (s : State) : Out := loadImm8 .b n s

/-- `LD C, n8` (R100). -/
def execLdCn8 (n : Byte) (s : State) : Out := loadImm8 .c n s

/-- `LD D, n8` (R100). -/
def execLdDn8 (n : Byte) (s : State) : Out := loadImm8 .d n s

/-- `LD E, n8` (R100). -/
def execLdEn8 (n : Byte) (s : State) : Out := loadImm8 .e n s

/-- `LD H, n8` (R100). -/
def execLdHn8 (n : Byte) (s : State) : Out := loadImm8 .h n s

/-- `LD L, n8` (R100). -/
def execLdLn8 (n : Byte) (s : State) : Out := loadImm8 .l n s

/-- `LD A, n8` (R100). -/
def execLdAn8 (n : Byte) (s : State) : Out := loadImm8 .a n s

/-- `LD BC, n16` (R101). -/
def execLdBCn16 (v : Addr) (s : State) : Out := loadImm16 .bc v s

/-- `LD DE, n16` (R101). -/
def execLdDEn16 (v : Addr) (s : State) : Out := loadImm16 .de v s

/-- `LD HL, n16` (R101). -/
def execLdHLn16 (v : Addr) (s : State) : Out := loadImm16 .hl v s

/-- `LD SP, n16` (R101). -/
def execLdSPn16 (v : Addr) (s : State) : Out := loadImm16 .sp v s

/-- `LD A, [BC]` (R102). -/
def execLdAIndBC (s : State) : Out := loadIndirect .a .bc s

/-- `LD A, [DE]` (R103). -/
def execLdAIndDE (s : State) : Out := loadIndirect .a .de s

/-- `LD B, [HL]` (R104). -/
def execLdBIndHL (s : State) : Out := loadIndirect .b .hl s

/-- `LD C, [HL]` (R104). -/
def execLdCIndHL (s : State) : Out := loadIndirect .c .hl s

/-- `LD D, [HL]` (R104). -/
def execLdDIndHL (s : State) : Out := loadIndirect .d .hl s

/-- `LD E, [HL]` (R104). -/
def execLdEIndHL (s : State) : Out := loadIndirect .e .hl s

/-- `LD H, [HL]` (R104). -/
def execLdHIndHL (s : State) : Out := loadIndirect .h .hl s

/-- `LD L, [HL]` (R104). -/
def execLdLIndHL (s : State) : Out := loadIndirect .l .hl s

/-- `LD A, [HL]` (R104). -/
def execLdAIndHL (s : State) : Out := loadIndirect .a .hl s

/-- `LD [BC], A` (R105). -/
def execLdIndBCA (s : State) : Out := storeIndirect .bc .a s

/-- `LD [DE], A` (R106). -/
def execLdIndDEA (s : State) : Out := storeIndirect .de .a s

/-- `LD [HL], B` (R107). -/
def execLdIndHLB (s : State) : Out := storeIndirect .hl .b s

/-- `LD [HL], C` (R107). -/
def execLdIndHLC (s : State) : Out := storeIndirect .hl .c s

/-- `LD [HL], D` (R107). -/
def execLdIndHLD (s : State) : Out := storeIndirect .hl .d s

/-- `LD [HL], E` (R107). -/
def execLdIndHLE (s : State) : Out := storeIndirect .hl .e s

/-- `LD [HL], H` (R107). -/
def execLdIndHLH (s : State) : Out := storeIndirect .hl .h s

/-- `LD [HL], L` (R107). -/
def execLdIndHLL (s : State) : Out := storeIndirect .hl .l s

/-- `LD [HL], A` (R107). -/
def execLdIndHLA (s : State) : Out := storeIndirect .hl .a s

/-- `LD [HL+], A` (R108). -/
def execLdIndHLIncA (s : State) : Out := storeAndUpdateHL (fun hl => hl + 1) s

/-- `LD [HL-], A` (R109). -/
def execLdIndHLDecA (s : State) : Out := storeAndUpdateHL (fun hl => hl - 1) s

/-- `LDH [a8], A` (R110). -/
def execLdhIndA8A (n : Byte) (s : State) : Out := storeHighPage n s

/-- `LDH [C], A` (R111). -/
def execLdhIndCA (s : State) : Out := storeHighPage s.c s

end Sys2Proof.Machine
end

