-- ==== Sys2Proof/Machine/Rotate.lean ====
section
/-! DEFINITION. Rotates (42_rotate.md R130 to R132): one function for both opcode spaces, chosen by `ROTATE_VARIANT`. -/

namespace Sys2Proof.Machine

/-- The one rotate of `RLA` and every `RLC r` (R130, R131; D8): Z, N and H are cleared in both variants. -/
def rotateReg8 (r : Reg8) (s : State) : Out :=
  let x := rotL s.rotateVariant (s.reg8 r) s.f.c
  .next { s.setReg8 r x.res with f := Flags.ofRot x }

/-- `RLA` (R130). -/
def execRla (s : State) : Out := rotateReg8 .a s

/-- `RLC B` (R131). -/
def execRlcB (s : State) : Out := rotateReg8 .b s

/-- `RLC C` (R131). -/
def execRlcC (s : State) : Out := rotateReg8 .c s

/-- `RLC D` (R131). -/
def execRlcD (s : State) : Out := rotateReg8 .d s

/-- `RLC E` (R131). -/
def execRlcE (s : State) : Out := rotateReg8 .e s

/-- `RLC H` (R131). -/
def execRlcH (s : State) : Out := rotateReg8 .h s

/-- `RLC L` (R131). -/
def execRlcL (s : State) : Out := rotateReg8 .l s

/-- `RLC A` (R131). -/
def execRlcA (s : State) : Out := rotateReg8 .a s

end Sys2Proof.Machine
end

