-- ==== Sys2Proof/Machine/Unimplemented.lean ====
section
/-! DEFINITION. The values with no implemented variant (60_exceptions.md R201, R202): they signal, change nothing else,
and the run goes on; PC has passed the bytes fetched. -/

namespace Sys2Proof.Machine

/-- `(unimplemented primary opcode)` (R201). -/
def execUnimplementedPrimary (op : Byte) (s : State) : Out := signalUnimplemented .primary op s

/-- `(unimplemented extended opcode)` (R202). -/
def execUnimplementedExtended (x : Byte) (s : State) : Out := signalUnimplemented .extended x s

end Sys2Proof.Machine
end

