-- ==== Sys2Proof/Machine/PrefixCb.lean ====
section
/-! DEFINITION. The prefix `0xCB` (46_bit_test.md R170): it fetches one more byte and dispatches over the extended space, in
the same Step. -/

namespace Sys2Proof.Machine

/-- `Execute` over the extended space (R170): the rule of an implemented value of R68, or the one fallback of R69.
Each row of R68 names its instruction's own meaning. -/
def executeExtended (x : Byte) (s : State) : Out :=
  match decodeExtended x with
  | .rlcB => execRlcB s
  | .rlcC => execRlcC s
  | .rlcD => execRlcD s
  | .rlcE => execRlcE s
  | .rlcH => execRlcH s
  | .rlcL => execRlcL s
  | .rlcA => execRlcA s
  | .bit0B => execBit0B s
  | .bit0C => execBit0C s
  | .bit0D => execBit0D s
  | .bit0E => execBit0E s
  | .bit0H => execBit0H s
  | .bit0L => execBit0L s
  | .bit0A => execBit0A s
  | .bit1B => execBit1B s
  | .bit1C => execBit1C s
  | .bit1D => execBit1D s
  | .bit1E => execBit1E s
  | .bit1H => execBit1H s
  | .bit1L => execBit1L s
  | .bit1A => execBit1A s
  | .bit2B => execBit2B s
  | .bit2C => execBit2C s
  | .bit2D => execBit2D s
  | .bit2E => execBit2E s
  | .bit2H => execBit2H s
  | .bit2L => execBit2L s
  | .bit2A => execBit2A s
  | .bit3B => execBit3B s
  | .bit3C => execBit3C s
  | .bit3D => execBit3D s
  | .bit3E => execBit3E s
  | .bit3H => execBit3H s
  | .bit3L => execBit3L s
  | .bit3A => execBit3A s
  | .bit4B => execBit4B s
  | .bit4C => execBit4C s
  | .bit4D => execBit4D s
  | .bit4E => execBit4E s
  | .bit4H => execBit4H s
  | .bit4L => execBit4L s
  | .bit4A => execBit4A s
  | .bit5B => execBit5B s
  | .bit5C => execBit5C s
  | .bit5D => execBit5D s
  | .bit5E => execBit5E s
  | .bit5H => execBit5H s
  | .bit5L => execBit5L s
  | .bit5A => execBit5A s
  | .bit6B => execBit6B s
  | .bit6C => execBit6C s
  | .bit6D => execBit6D s
  | .bit6E => execBit6E s
  | .bit6H => execBit6H s
  | .bit6L => execBit6L s
  | .bit6A => execBit6A s
  | .bit7B => execBit7B s
  | .bit7C => execBit7C s
  | .bit7D => execBit7D s
  | .bit7E => execBit7E s
  | .bit7H => execBit7H s
  | .bit7L => execBit7L s
  | .bit7A => execBit7A s
  | _ => execUnimplementedExtended x s

/-- `PREFIX CB` (R170). -/
def execPrefixCB (s : State) : Out := fetch8 s fun x s1 => executeExtended x s1

end Sys2Proof.Machine
end

