-- ==== Sys2Proof/Machine/Stack.lean ====
section
/-! DEFINITION. Stack instructions (45_stack.md R160, R161). -/

namespace Sys2Proof.Machine

/-- `PUSH rr` (R160); the pair and the flags are kept. -/
def pushPair (p : Pair) (s : State) : Out := push16 (s.pair p) s .next

/-- `POP rr` (R161); storage and the flags are kept. -/
def popPair (p : Pair) (s : State) : Out := pop16 s fun v s1 => .next (s1.setPair p v)

/-- `PUSH BC` (R160). -/
def execPushBC (s : State) : Out := pushPair .bc s

/-- `PUSH DE` (R160). -/
def execPushDE (s : State) : Out := pushPair .de s

/-- `PUSH HL` (R160). -/
def execPushHL (s : State) : Out := pushPair .hl s

/-- `POP BC` (R161). -/
def execPopBC (s : State) : Out := popPair .bc s

/-- `POP DE` (R161). -/
def execPopDE (s : State) : Out := popPair .de s

/-- `POP HL` (R161). -/
def execPopHL (s : State) : Out := popPair .hl s

end Sys2Proof.Machine
end

