-- ==== Sys2Proof/Machine/Fetch.lean ====
section
/-! DEFINITION. The fetch of one instruction (30_encoding.md R60 to R64): the opcode byte, then the operand bytes its
format asks for, each by `Fetch8`. Every fetch of an instruction comes before its effect (R46), so the operands are in
the instruction when its meaning runs. -/

namespace Sys2Proof.Machine

/-- `opcode <- Fetch8()`, then the operand fetches of its format; `run` gets the instruction and the state whose PC has
passed the bytes fetched. For `0xCB` the extended byte is fetched by the prefix's own meaning (R62 b, R170). -/
def fetchInstr (s : State) (run : Instr → State → Out) : Out :=
  fetch8 s fun op s1 =>
    match primaryEntry op with
    | .op i => run i s1
    | .opN8 mk => fetch8 s1 fun n s2 => run (mk n) s2
    | .opN16 mk => fetch16 s1 fun v s2 => run (mk v) s2
    | .pre => run .prefixCB s1

/-- The bytes of a row of the opcode table at PC, followed by zeros up to the longest instruction (3 bytes, R63). -/
def placeTableWord (s : State) (nbits w : Nat) : State :=
  placeBytes s s.pc ((tableBytes nbits w ++ [0, 0, 0]).take 3)

end Sys2Proof.Machine
end

