-- ==== Sys2Proof/Machine/Step.lean ====
section
/-! DEFINITION. One Step of the core (30_encoding.md R61): fetch, then execute. -/

namespace Sys2Proof.Machine

/-- `Step()` (R61): the failure output of the Step before is gone, the instruction at PC is fetched, and it is executed. -/
def step (s : State) : Host.Outcome State Fault Refusal := fetchInstr s.clearSignal exec

/-- The state with an instruction's bytes stored at PC, where the next Step fetches (log 11, log 13). -/
def State.withFetchWord (s : State) (nbits w : Nat) : State := placeTableWord s nbits w

end Sys2Proof.Machine
end

