-- ==== Sys2Proof/Machine/HostPort.lean ====
section
/-! DEFINITION. What the host may do beside a Step (70_reset_and_hazards.md R258): the initial state of a run from its
parameters, the bulk-load port, and the register snapshot. -/

namespace Sys2Proof.Machine

/-- `BulkLoad(bytes)` (20_memory.md R50): the bytes go to addresses `0x0000` upward in region 0, or, when they are more
than it holds, the load fails and no byte is written (R205; D17). -/
def bulkLoad (bytes : List Byte) (s : State) : Except Failure State :=
  if bytes.length ≤ Config.bulkLoadCapacity then .ok { s with mem := s.mem.writeAll Region.romBank0.first bytes }
  else .error .bulkLoadOverflow

/-- Region 1 filled with `ROMN_IMAGE`, a content of exactly its size (R241; D16; log 14). -/
def loadRomN (image : Vector Byte Config.romNSize) (s : State) : State :=
  { s with mem := s.mem.writeAll Region.romBankN.first image.toList }

/-- The state a run starts from (R242), in the order of that rule: construct, apply `ROMN_IMAGE`, bulk-load `BOOT_IMAGE`,
which must succeed. -/
def State.initial (variant : RotateVariant) (romN : Vector Byte Config.romNSize) (boot : List Byte) : Except Failure State :=
  bulkLoad boot (loadRomN romN { State.reset with rotateVariant := variant })

/-- What the snapshot port shows (60_exceptions.md R219; 00_scope.md R8): the ten registers, no storage. -/
structure Snapshot where
  a : Byte
  f : Byte
  b : Byte
  c : Byte
  d : Byte
  e : Byte
  h : Byte
  l : Byte
  pc : Addr
  sp : Addr
  deriving DecidableEq, Repr

/-- The snapshot of a state (R219), F presented as `Z ++ N ++ H ++ C ++ 0b0000` (R16). -/
def State.snapshot (s : State) : Snapshot where
  a := s.a
  f := s.f.toByte
  b := s.b
  c := s.c
  d := s.d
  e := s.e
  h := s.h
  l := s.l
  pc := s.pc
  sp := s.sp

/-- A fault under its name in the failure taxonomy (R200). -/
def Fault.failure : Fault → Failure
  | .addressDecodeFault addr => .addressDecodeFault addr

end Sys2Proof.Machine
end

