-- ==== Sys2Proof/Machine/Driver.lean ====
section
/-! DEFINITION. The Step Driver's loop as far as the spec gives it (R206, R250, R255): how many Steps it makes
(`RUN_LENGTH`, a number or unbounded), and what it does on an `UnimplementedOpcode` signal (`UNIMPL_POLICY`). The driver is
outside the core (00_scope.md R2): `step` itself never stops (log 12). -/

namespace Sys2Proof.Machine

/-- A run so far: the state after the last Step, and the failure output of each Step in order. -/
structure RunRecord where
  final : State
  signals : List (Option OpcodeSignal)
  deriving DecidableEq, Repr

/-- At most `n` Steps (R255). With `stopRun` the run ends after the first Step that signals (R206); a fatal fault ends it
with no final state (R203). -/
def drive (policy : UnimplPolicy) : Nat → State → Host.Outcome RunRecord Fault Refusal
  | 0, s => .next { final := s, signals := [] }
  | n + 1, s =>
    match step s with
    | .next t =>
      if policy = .stopRun ∧ t.signal.isSome then .next { final := t, signals := [t.signal] }
      else
        match drive policy n t with
        | .next r => .next { final := r.final, signals := t.signal :: r.signals }
        | .fault x => .fault x
        | .refused x => .refused x
    | .fault x => .fault x
    | .refused x => .refused x

/-- How many of `k` Steps a run length lets the driver make: at most its number, or all of them when unbounded (R255). -/
def stepsAllowed : RunLength → Nat → Nat
  | .steps n, k => min n k
  | .unbounded, k => k

/-- A run of any length, bounded or unbounded (R255): the sequence of what it has come to once the driver has had time for
`k` Steps, for every `k` (log 12). -/
def runSeq (policy : UnimplPolicy) (length : RunLength) (s : State) (k : Nat) : Host.Outcome RunRecord Fault Refusal :=
  drive policy (stepsAllowed length k) s

/-- A run ends with a record when the sequence comes to it and stays there: the driver makes no further Step. -/
def RunEnds (policy : UnimplPolicy) (length : RunLength) (s : State) (r : RunRecord) : Prop :=
  ∃ k, ∀ j, k ≤ j → runSeq policy length s j = .next r

/-- A run under the five parameters of R7, from construction: a run whose load failed never starts (R205, R242). -/
def runFromReset (p : Parameters) : Except Failure (Nat → Host.Outcome RunRecord Fault Refusal) :=
  match State.initial p.rotateVariant p.romNImage p.bootImage with
  | .ok s => .ok (runSeq p.unimplPolicy p.runLength s)
  | .error e => .error e

end Sys2Proof.Machine
end

