-- ==== Sys2Proof/Safety.lean ====
section
/-! DEFINITION. The terms statements are made in: the frame (what a step leaves as it was), the invariant, a run without a
failure signal, and the spec's own tables of register codes (R12), flag effects (R18), register writers (R13), memory
writers (R22). The tables are written from those rules, not from the meanings. -/

namespace Sys2Proof.Machine

/-- The invariant of every step: storage is in its canonical form. -/
abbrev Inv (s : State) : Prop := s.mem.wf

/-- Every 8-bit register but those named is as it was. -/
def Reg8Unchanged (except : List Reg8) (s t : State) : Prop := ∀ r, r ∉ except → t.reg8 r = s.reg8 r

/-- Every byte of memory but those at the named addresses reads as it did. -/
def MemoryUnchanged (except : List Addr) (s t : State) : Prop := ∀ x, x ∉ except → t.byteAt x = s.byteAt x

/-- The rotate variant and the failure output are as they were. -/
def OutputsUnchanged (s t : State) : Prop := t.rotateVariant = s.rotateVariant ∧ t.signal = s.signal

/-- A step that ends in a next state without an `UnimplementedOpcode` signal (93_implementation_defined.md U1). -/
def CleanStep (s t : State) : Prop := step s = .next t ∧ t.signal = none

/-- A run of `n` steps, none of which signals. -/
def CleanRun : Nat → State → State → Prop
  | 0, s, t => s = t
  | n + 1, s, t => ∃ u, CleanStep s u ∧ CleanRun n u t

/-- A Step over these bytes at PC is that instruction's execution, with PC past them: the fetches of an instruction rule
(30_encoding.md R60, R61, R64) come before its effect, and the failure output is that of this Step alone (R25). -/
def RunsAt (i : Instr) (bytes : List Byte) : Prop :=
  ∀ s : State, (∀ k, k < bytes.length → s.byteAt (s.pc + BitVec.ofNat 16 k) = bytes.getD k 0) →
    step s = exec i { s with pc := s.pc + BitVec.ofNat 16 bytes.length, signal := none }

/-- `n` fetches in a row (30_encoding.md R60), handing on the bytes in order. -/
def fetchMany : Nat → State → (List Byte → State → Out) → Out
  | 0, s, k => k [] s
  | n + 1, s, k => fetch8 s fun v s1 => fetchMany n s1 fun vs s2 => k (v :: vs) s2

/-- The three bytes at PC, where the next instruction is fetched (16-bit wrap-around, R60). -/
def State.window (s : State) : List Byte := [s.byteAt s.pc, s.byteAt (s.pc + 1), s.byteAt (s.pc + 2)]

/-- An opcode byte with a register code in `y = op[5:3]` (30_encoding.md R65). -/
def inFieldY (base code : Byte) : Byte := base ||| code <<< 3

/-- An opcode byte with a register code in `z = op[2:0]` (R65). -/
def inFieldZ (base code : Byte) : Byte := base ||| code

/-- An opcode byte with a 2-bit register code in `p = op[5:4]` (R65). -/
def inFieldP (base code : Byte) : Byte := base ||| code <<< 4

/-- The four entries of the flag-effect table of 10_state.md R18: unaffected, cleared, set, computed. -/
inductive FlagEffect where
  | kept | cleared | set | computed
  deriving DecidableEq, Repr

/-- What a table entry says of one flag before and after. -/
def FlagEffect.holds : FlagEffect → Bool → Bool → Prop
  | .kept, before, after => after = before
  | .cleared, _, after => after = false
  | .set, _, after => after = true
  | .computed, _, _ => True

/-- A row of the table of R18. -/
structure FlagRow where
  z : FlagEffect
  n : FlagEffect
  h : FlagEffect
  c : FlagEffect
  deriving DecidableEq, Repr

/-- The four flags of a transition obey a row of the table. -/
def FlagRow.holds (row : FlagRow) (before after : Flags) : Prop :=
  row.z.holds before.z after.z ∧ row.n.holds before.n after.n ∧ row.h.holds before.h after.h ∧
    row.c.holds before.c after.c

end Sys2Proof.Machine

namespace Sys2Proof

open Machine

/-- The registers a pair is made of (10_state.md R11). -/
def Pair.halves : Pair → List Reg8
  | .bc => [.b, .c]
  | .de => [.d, .e]
  | .hl => [.h, .l]

/-- The 8-bit registers a 16-bit operand covers: none for SP. -/
def Reg16.halves : Reg16 → List Reg8
  | .bc => [.b, .c]
  | .de => [.d, .e]
  | .hl => [.h, .l]
  | .sp => []

/-- The 3-bit field value of an 8-bit register operand (10_state.md R12). -/
def Reg8.code : Reg8 → Byte
  | .b => 0b000
  | .c => 0b001
  | .d => 0b010
  | .e => 0b011
  | .h => 0b100
  | .l => 0b101
  | .a => 0b111

/-- The 2-bit field value of a 16-bit operand (R12). -/
def Reg16.code : Reg16 → Byte
  | .bc => 0b00
  | .de => 0b01
  | .hl => 0b10
  | .sp => 0b11

/-- The 2-bit field value of a pair in `PUSH rr` and `POP rr` (R12). -/
def Pair.code : Pair → Byte
  | .bc => 0b00
  | .de => 0b01
  | .hl => 0b10

/-- The flag-effect table of R18, every instruction's row. The row of `prefixCB` is that of the prefix itself; the
instruction it dispatches to has its own. -/
def Instr.flagRow : Instr → FlagRow
  | .incB | .incC | .incD | .incE | .incH | .incL | .incA => ⟨.computed, .cleared, .computed, .kept⟩
  | .decB | .decC | .decD | .decE | .decH | .decL | .decA => ⟨.computed, .set, .computed, .kept⟩
  | .rla | .rlcB | .rlcC | .rlcD | .rlcE | .rlcH | .rlcL | .rlcA => ⟨.cleared, .cleared, .cleared, .computed⟩
  | .addAIndHL => ⟨.computed, .cleared, .computed, .computed⟩
  | .xorAA => ⟨.set, .cleared, .cleared, .cleared⟩
  | .cpAn8 _ | .cpAIndHL => ⟨.computed, .set, .computed, .computed⟩
  | .bit0B | .bit0C | .bit0D | .bit0E | .bit0H | .bit0L | .bit0A | .bit1B | .bit1C | .bit1D | .bit1E | .bit1H
  | .bit1L | .bit1A | .bit2B | .bit2C | .bit2D | .bit2E | .bit2H | .bit2L | .bit2A | .bit3B | .bit3C | .bit3D
  | .bit3E | .bit3H | .bit3L | .bit3A | .bit4B | .bit4C | .bit4D | .bit4E | .bit4H | .bit4L | .bit4A | .bit5B
  | .bit5C | .bit5D | .bit5E | .bit5H | .bit5L | .bit5A | .bit6B | .bit6C | .bit6D | .bit6E | .bit6H | .bit6L
  | .bit6A | .bit7B | .bit7C | .bit7D | .bit7E | .bit7H | .bit7L | .bit7A => ⟨.computed, .cleared, .set, .kept⟩
  | .ldBCn16 _ | .ldIndBCA | .incBC | .ldBn8 _ | .ldAIndBC | .ldCn8 _ | .ldDEn16 _ | .ldIndDEA | .incDE
  | .ldDn8 _ | .ldAIndDE | .ldEn8 _ | .jrNZe8 _ | .ldHLn16 _ | .ldIndHLIncA | .incHL | .ldHn8 _ | .ldLn8 _
  | .ldSPn16 _ | .ldIndHLDecA | .incSP | .ldAn8 _ | .ldBIndHL | .ldCIndHL | .ldDIndHL | .ldEIndHL | .ldHIndHL
  | .ldLIndHL | .ldIndHLB | .ldIndHLC | .ldIndHLD | .ldIndHLE | .ldIndHLH | .ldIndHLL | .ldIndHLA | .ldAIndHL
  | .popBC | .pushBC | .ret | .prefixCB | .callA16 _ | .popDE | .pushDE | .ldhIndA8A _ | .popHL | .ldhIndCA
  | .pushHL | .unimplementedPrimary _ | .unimplementedExtended _ => ⟨.kept, .kept, .kept, .kept⟩

/-- The 8-bit registers an instruction writes, pair halves included (10_state.md R13). -/
def Instr.writesReg8 : Instr → List Reg8
  | .ldBCn16 _ | .incBC | .popBC => [.b, .c]
  | .ldIndBCA | .ldIndDEA | .jrNZe8 _ | .ldSPn16 _ | .incSP | .ldIndHLB | .ldIndHLC | .ldIndHLD | .ldIndHLE
  | .ldIndHLH | .ldIndHLL | .ldIndHLA | .cpAIndHL | .pushBC | .ret | .prefixCB | .callA16 _ | .pushDE
  | .ldhIndA8A _ | .ldhIndCA | .pushHL | .cpAn8 _ | .bit0B | .bit0C | .bit0D | .bit0E | .bit0H | .bit0L
  | .bit0A | .bit1B | .bit1C | .bit1D | .bit1E | .bit1H | .bit1L | .bit1A | .bit2B | .bit2C | .bit2D | .bit2E
  | .bit2H | .bit2L | .bit2A | .bit3B | .bit3C | .bit3D | .bit3E | .bit3H | .bit3L | .bit3A | .bit4B | .bit4C
  | .bit4D | .bit4E | .bit4H | .bit4L | .bit4A | .bit5B | .bit5C | .bit5D | .bit5E | .bit5H | .bit5L | .bit5A
  | .bit6B | .bit6C | .bit6D | .bit6E | .bit6H | .bit6L | .bit6A | .bit7B | .bit7C | .bit7D | .bit7E | .bit7H
  | .bit7L | .bit7A | .unimplementedPrimary _ | .unimplementedExtended _ => []
  | .incB | .decB | .ldBn8 _ | .ldBIndHL | .rlcB => [.b]
  | .ldAIndBC | .rla | .ldAIndDE | .incA | .decA | .ldAn8 _ | .ldAIndHL | .addAIndHL | .xorAA | .rlcA => [.a]
  | .incC | .decC | .ldCn8 _ | .ldCIndHL | .rlcC => [.c]
  | .ldDEn16 _ | .incDE | .popDE => [.d, .e]
  | .incD | .decD | .ldDn8 _ | .ldDIndHL | .rlcD => [.d]
  | .incE | .decE | .ldEn8 _ | .ldEIndHL | .rlcE => [.e]
  | .ldHLn16 _ | .ldIndHLIncA | .incHL | .ldIndHLDecA | .popHL => [.h, .l]
  | .incH | .decH | .ldHn8 _ | .ldHIndHL | .rlcH => [.h]
  | .incL | .decL | .ldLn8 _ | .ldLIndHL | .rlcL => [.l]

/-- The instructions that write SP (R13). -/
def Instr.writesSP : Instr → Bool
  | .ldSPn16 _ | .incSP | .pushBC | .pushDE | .pushHL | .popBC | .popDE | .popHL | .callA16 _ | .ret => true
  | .ldBCn16 _ | .ldIndBCA | .incBC | .incB | .decB | .ldBn8 _ | .ldAIndBC | .incC | .decC | .ldCn8 _
  | .ldDEn16 _ | .ldIndDEA | .incDE | .incD | .decD | .ldDn8 _ | .rla | .ldAIndDE | .incE | .decE | .ldEn8 _
  | .jrNZe8 _ | .ldHLn16 _ | .ldIndHLIncA | .incHL | .incH | .decH | .ldHn8 _ | .incL | .decL | .ldLn8 _
  | .ldIndHLDecA | .incA | .decA | .ldAn8 _ | .ldBIndHL | .ldCIndHL | .ldDIndHL | .ldEIndHL | .ldHIndHL
  | .ldLIndHL | .ldIndHLB | .ldIndHLC | .ldIndHLD | .ldIndHLE | .ldIndHLH | .ldIndHLL | .ldIndHLA | .ldAIndHL
  | .addAIndHL | .xorAA | .cpAIndHL | .prefixCB | .ldhIndA8A _ | .ldhIndCA | .cpAn8 _ | .rlcB | .rlcC | .rlcD
  | .rlcE | .rlcH | .rlcL | .rlcA | .bit0B | .bit0C | .bit0D | .bit0E | .bit0H | .bit0L | .bit0A | .bit1B
  | .bit1C | .bit1D | .bit1E | .bit1H | .bit1L | .bit1A | .bit2B | .bit2C | .bit2D | .bit2E | .bit2H | .bit2L
  | .bit2A | .bit3B | .bit3C | .bit3D | .bit3E | .bit3H | .bit3L | .bit3A | .bit4B | .bit4C | .bit4D | .bit4E
  | .bit4H | .bit4L | .bit4A | .bit5B | .bit5C | .bit5D | .bit5E | .bit5H | .bit5L | .bit5A | .bit6B | .bit6C
  | .bit6D | .bit6E | .bit6H | .bit6L | .bit6A | .bit7B | .bit7C | .bit7D | .bit7E | .bit7H | .bit7L | .bit7A
  | .unimplementedPrimary _ | .unimplementedExtended _ => false

/-- The instructions that change PC beyond their own fetches (R13, R14). -/
def Instr.writesPC : Instr → Bool
  | .jrNZe8 _ | .callA16 _ | .ret => true
  | .ldBCn16 _ | .ldIndBCA | .incBC | .incB | .decB | .ldBn8 _ | .ldAIndBC | .incC | .decC | .ldCn8 _
  | .ldDEn16 _ | .ldIndDEA | .incDE | .incD | .decD | .ldDn8 _ | .rla | .ldAIndDE | .incE | .decE | .ldEn8 _
  | .ldHLn16 _ | .ldIndHLIncA | .incHL | .incH | .decH | .ldHn8 _ | .incL | .decL | .ldLn8 _ | .ldSPn16 _
  | .ldIndHLDecA | .incSP | .incA | .decA | .ldAn8 _ | .ldBIndHL | .ldCIndHL | .ldDIndHL | .ldEIndHL
  | .ldHIndHL | .ldLIndHL | .ldIndHLB | .ldIndHLC | .ldIndHLD | .ldIndHLE | .ldIndHLH | .ldIndHLL | .ldIndHLA
  | .ldAIndHL | .addAIndHL | .xorAA | .cpAIndHL | .popBC | .pushBC | .prefixCB | .popDE | .pushDE
  | .ldhIndA8A _ | .popHL | .ldhIndCA | .pushHL | .cpAn8 _ | .rlcB | .rlcC | .rlcD | .rlcE | .rlcH | .rlcL
  | .rlcA | .bit0B | .bit0C | .bit0D | .bit0E | .bit0H | .bit0L | .bit0A | .bit1B | .bit1C | .bit1D | .bit1E
  | .bit1H | .bit1L | .bit1A | .bit2B | .bit2C | .bit2D | .bit2E | .bit2H | .bit2L | .bit2A | .bit3B | .bit3C
  | .bit3D | .bit3E | .bit3H | .bit3L | .bit3A | .bit4B | .bit4C | .bit4D | .bit4E | .bit4H | .bit4L | .bit4A
  | .bit5B | .bit5C | .bit5D | .bit5E | .bit5H | .bit5L | .bit5A | .bit6B | .bit6C | .bit6D | .bit6E | .bit6H
  | .bit6L | .bit6A | .bit7B | .bit7C | .bit7D | .bit7E | .bit7H | .bit7L | .bit7A | .unimplementedPrimary _
  | .unimplementedExtended _ => false

/-- The addresses an instruction stores to, by the expressions of the instruction rules (20_memory.md R22): computed in the
state its meaning starts from. Only these instructions store. -/
def Instr.stores (s : State) : Instr → List Addr
  | .ldIndBCA => [s.indirect .bc]
  | .ldIndDEA => [s.indirect .de]
  | .ldIndHLB | .ldIndHLC | .ldIndHLD | .ldIndHLE | .ldIndHLH | .ldIndHLL | .ldIndHLA | .ldIndHLIncA
  | .ldIndHLDecA => [s.indirect .hl]
  | .ldhIndA8A n => [highPage n]
  | .ldhIndCA => [highPage s.c]
  | .pushBC | .pushDE | .pushHL | .callA16 _ => [s.sp - 1, s.sp - 2]
  | .ldBCn16 _ | .incBC | .incB | .decB | .ldBn8 _ | .ldAIndBC | .incC | .decC | .ldCn8 _ | .ldDEn16 _
  | .incDE | .incD | .decD | .ldDn8 _ | .rla | .ldAIndDE | .incE | .decE | .ldEn8 _ | .jrNZe8 _ | .ldHLn16 _
  | .incHL | .incH | .decH | .ldHn8 _ | .incL | .decL | .ldLn8 _ | .ldSPn16 _ | .incSP | .incA | .decA
  | .ldAn8 _ | .ldBIndHL | .ldCIndHL | .ldDIndHL | .ldEIndHL | .ldHIndHL | .ldLIndHL | .ldAIndHL | .addAIndHL
  | .xorAA | .cpAIndHL | .popBC | .ret | .prefixCB | .popDE | .popHL | .cpAn8 _ | .rlcB | .rlcC | .rlcD
  | .rlcE | .rlcH | .rlcL | .rlcA | .bit0B | .bit0C | .bit0D | .bit0E | .bit0H | .bit0L | .bit0A | .bit1B
  | .bit1C | .bit1D | .bit1E | .bit1H | .bit1L | .bit1A | .bit2B | .bit2C | .bit2D | .bit2E | .bit2H | .bit2L
  | .bit2A | .bit3B | .bit3C | .bit3D | .bit3E | .bit3H | .bit3L | .bit3A | .bit4B | .bit4C | .bit4D | .bit4E
  | .bit4H | .bit4L | .bit4A | .bit5B | .bit5C | .bit5D | .bit5E | .bit5H | .bit5L | .bit5A | .bit6B | .bit6C
  | .bit6D | .bit6E | .bit6H | .bit6L | .bit6A | .bit7B | .bit7C | .bit7D | .bit7E | .bit7H | .bit7L | .bit7A
  | .unimplementedPrimary _ | .unimplementedExtended _ => []

end Sys2Proof
end

