-- ==== Sys2Proof/Certificates/Slice0/Obligations.lean ====
section
/-! DEFINITION. The statements for the provers. Each docstring names the rules of spec/ it formalises. Where a statement
says `exec`, PC has already passed the instruction's bytes (log 7): `StepRunsDecodedInstruction`, and the clause `RunsAt` of
each instruction's statement, carry it to a Step. -/

open Sys2Proof Sys2Proof.Machine

/-! ### Encoding and decoding -/

/-- A few words written out bit by bit from R12, R65, R66, R68 decode to the instructions they stand for. -/
def Obligations.WordsOfTheOpcodeMapDecode : Prop :=
  decode [0b00_000_110, 0xAB] = .ok (.ldBn8 0xAB, []) ∧
  decode [0b00_10_0001, 0xFF, 0x9F] = .ok (.ldHLn16 0x9FFF, []) ∧
  decode [0b01_100_110] = .ok (.ldHIndHL, []) ∧
  decode [0b01110_111] = .ok (.ldIndHLA, []) ∧
  decode [0b00_001_100] = .ok (.incC, []) ∧
  decode [0b00_000_101] = .ok (.decB, []) ∧
  decode [0b00_11_0011] = .ok (.incSP, []) ∧
  decode [0b00010111] = .ok (.rla, []) ∧
  decode [0b10000110] = .ok (.addAIndHL, []) ∧
  decode [0b00100000, 0xFB] = .ok (.jrNZe8 0xFB, []) ∧
  decode [0b11001101, 0x00, 0x02] = .ok (.callA16 0x0200, []) ∧
  decode [0b11_10_0101] = .ok (.pushHL, []) ∧
  decode [0b11_01_0001] = .ok (.popDE, []) ∧
  decode [0b11001011, 0b00000_001] = .ok (.rlcC, []) ∧
  decode [0b11001011, 0b01_111_100] = .ok (.bit7H, []) ∧
  decode [0b11001011, 0b11001011] = .ok (.unimplementedExtended 0xCB, [])

/-- Decoding the encoding of any well-formed instruction gives it back, whatever follows it; after the bare prefix byte
nothing may follow, since `0xCB` always takes the next byte (R71). -/
def Obligations.DecodeOfEncodeIsTheInstruction : Prop :=
  ∀ (i : Instr) (rest : List Byte), i.wellFormed = true → (i = .prefixCB → rest = []) →
    decode (encode i ++ rest) = .ok (i, rest)

/-- What decodes is well-formed, and its encoding is exactly the bytes consumed: each word has one meaning. -/
def Obligations.EncodeOfDecodeIsTheBytes : Prop :=
  ∀ (bytes rest : List Byte) (i : Instr), decode bytes = .ok (i, rest) →
    i.wellFormed = true ∧ bytes = encode i ++ rest ∧ (encode i).length = i.length

/-- The values with no implemented variant are the 190 of R67 and the 193 of R69, each falls to the one fallback of its
space, and no other value does (R72). -/
def Obligations.UnimplementedValuesFallBack : Prop :=
  unimplementedPrimaryValues.length = 190 ∧ unimplementedPrimaryValues.Nodup ∧
  (∀ (op : Byte) (rest : List Byte),
    decode (op :: rest) = .ok (.unimplementedPrimary op, rest) ↔ op ∈ unimplementedPrimaryValues) ∧
  (∀ (x : Byte) (rest : List Byte),
    decode (0xCB :: x :: rest) = .ok (.unimplementedExtended x, rest) ↔ unimplementedExtendedValue x = true) ∧
  ((List.range 256).filter fun n => unimplementedExtendedValue (BitVec.ofNat 8 n)).length = 193

/-- The byte after `0xCB` is always an extended opcode, whatever its value, `0xCB` itself included; an extended opcode
decodes to a row of R68 or the fallback, never to another prefix (R71). -/
def Obligations.PrefixTakesExactlyTheNextByte : Prop :=
  ∀ (x : Byte) (rest : List Byte),
    decode (0xCB :: x :: rest) = .ok (decodeExtended x, rest) ∧ decodeExtended x ≠ .prefixCB ∧
      decodeExtended 0xCB = .unimplementedExtended 0xCB

/-! ### Fetch and step -/

/-- R60: `n` fetches hand on the `n` bytes from PC upward, modulo 2^16, and leave PC plus `n`; nothing else changes. -/
def Obligations.FetchesReadAtPCAndAdvanceIt : Prop :=
  ∀ (n : Nat) (s : State) (k : List Byte → State → Out),
    fetchMany n s k =
      k ((List.range n).map fun j => s.byteAt (s.pc + BitVec.ofNat 16 j)) { s with pc := s.pc + BitVec.ofNat 16 n }

/-- When the bytes at PC decode to an instruction, a Step is that instruction's execution in the state whose failure output
is cleared and whose PC has passed the instruction's bytes (R14, R61 to R63, R70). -/
def Obligations.StepRunsDecodedInstruction : Prop :=
  ∀ (s : State) (i : Instr) (rest : List Byte), decode s.window = .ok (i, rest) →
    step s = exec i { s with pc := s.pc + BitVec.ofNat 16 i.length, signal := none }

/-- R170: the prefix fetches one more byte and runs the extended instruction it selects, in the same Step, and completes. -/
def Obligations.PrefixRunsTheExtendedInstruction : Prop :=
  RunsAt .prefixCB [0xCB] ∧ ∀ s : State, ∃ t, exec .prefixCB s = .next t ∧
    exec .prefixCB s = exec (decodeExtended (s.byteAt s.pc)) { s with pc := s.pc + 1 }

/-- Every Step from every state ends in a next state: no address fault is reachable (R203), there is no terminal state
(R255), a started Step completes (R253). -/
def Obligations.EveryStepCompletes : Prop :=
  ∀ s : State, ∃ t, step s = .next t

/-- Every Step from a state with canonical storage ends in one with canonical storage, and every region keeps its bytes
inside the 16-bit space. -/
def Obligations.StepKeepsStorageCanonical : Prop :=
  ∀ s t : State, Inv s → step s = .next t → Inv t

/-- The reset state has canonical storage. -/
def Obligations.ResetStorageIsCanonical : Prop := Inv State.reset

/-- R26: every register, every flag and every pair after reset. -/
def Obligations.ResetLeavesEveryRegisterZero : Prop :=
  (∀ r : Reg8, State.reset.reg8 r = 0x00) ∧ State.reset.snapshot.f = 0x00 ∧ State.reset.f = ⟨false, false, false, false⟩ ∧
  State.reset.pc = 0x0000 ∧ State.reset.sp = 0x0000 ∧ ∀ p : Pair, State.reset.pair p = 0x0000

/-- R27 before the parameters of R241 and R242 are applied (the spec's D16, D17; log 3): every byte after reset. -/
def Obligations.ResetLeavesEveryByteZero : Prop :=
  (∀ x : Addr, State.reset.byteAt x = 0x00) ∧ ∀ (x : Addr) (k : Byte → Out), memRead x State.reset k = k 0x00

/-- R7 and R25 as the model holds them (log 1, log 2; the model's choice of fields): no Step changes the rotate variant, and
the failure output of the Step before is not read. -/
def Obligations.ParameterIsConstantAndOutputUnread : Prop :=
  ∀ (s t : State) (x : Option OpcodeSignal), step s = .next t →
    t.rotateVariant = s.rotateVariant ∧ step { s with signal := x } = .next t

/-- R200, R208: a Step signals exactly when its instruction is one of the two fallbacks, and the signal names the space and
the byte. -/
def Obligations.StepSignalsExactlyTheUnimplemented : Prop :=
  ∀ (s t : State) (i : Instr) (rest : List Byte), decode s.window = .ok (i, rest) → step s = .next t →
    ((∃ op, i = .unimplementedPrimary op ∧ t.signal = some ⟨.primary, op⟩) ∨
     (∃ x, i = .unimplementedExtended x ∧ t.signal = some ⟨.extended, x⟩) ∨
     ((∀ op, i ≠ .unimplementedPrimary op) ∧ (∀ x, i ≠ .unimplementedExtended x) ∧ t.signal = none))

/-- R51: a store to the byte of the next opcode is seen by the next fetch. `LD [HL],A` with HL at the address of the byte
after it stores A there, and the next Step executes the stored byte. -/
def Obligations.StoreIsSeenByTheNextFetch : Prop :=
  ∀ (s : State) (i : Instr), s.byteAt s.pc = 0x77 → s.indirect .hl = s.pc + 1 → decode [s.a] = .ok (i, []) →
    i ≠ .prefixCB →
    ∃ t, step s = .next t ∧ t.pc = s.pc + 1 ∧ t.byteAt t.pc = s.a ∧
      step t = exec i { t with pc := s.pc + 2, signal := none }

/-! ### The whole-machine tables -/

/-- R17, R18: the flags after any instruction obey its row of the flag-effect table; an unaffected flag keeps its value. -/
def Obligations.FlagsObeyTheEffectTable : Prop :=
  ∀ (i : Instr) (s t : State), i ≠ .prefixCB → exec i s = .next t → i.flagRow.holds s.f t.f

/-- R13: an instruction writes no 8-bit register but those the table gives it. -/
def Obligations.OnlyListedRegistersAreWritten : Prop :=
  ∀ (i : Instr) (s t : State), i ≠ .prefixCB → exec i s = .next t → Reg8Unchanged i.writesReg8 s t

/-- R22: an instruction stores at no address but those its rule computes; most store nowhere. -/
def Obligations.OnlyListedAddressesAreStoredTo : Prop :=
  ∀ (i : Instr) (s t : State), i ≠ .prefixCB → exec i s = .next t → MemoryUnchanged (i.stores s) s t

/-- R14, R15, R13: apart from its own fetches an instruction changes PC only as JR NZ, CALL or RET, and SP only as the six
forms that name it. -/
def Obligations.OnlyListedInstructionsMovePCOrSP : Prop :=
  ∀ (i : Instr) (s t : State), i ≠ .prefixCB → exec i s = .next t →
    (i.writesPC = false → t.pc = s.pc) ∧ (i.writesSP = false → t.sp = s.sp)

/-- R163: with the circular rotate, N, H and C reach nothing but F: two states that differ in those flags only step to
states that differ in F only, and in Z not at all. -/
def Obligations.FlagsOtherThanZStayInF : Prop :=
  ∀ (s : State) (g : Flags), s.rotateVariant = .circular → g.z = s.f.z →
    ∃ t t', step s = .next t ∧ step { s with f := g } = .next t' ∧ { t' with f := t.f } = t ∧ t'.f.z = t.f.z

/-! ### Registers and storage -/

/-- R16 (the spec's D25 lets a model hold four booleans, log 9): F as the snapshot shows it has Z, N, H, C in bits 7 to 4 and zeros in bits 3 to 0. -/
def Obligations.FHasFourFlagsAndAZeroNibble : Prop :=
  ∀ s : State, s.snapshot.f.getLsbD 7 = s.f.z ∧ s.snapshot.f.getLsbD 6 = s.f.n ∧ s.snapshot.f.getLsbD 5 = s.f.h ∧
    s.snapshot.f.getLsbD 4 = s.f.c ∧ s.snapshot.f.toNat % 16 = 0

/-- R11: a pair is a view of its halves, high register first: writing the pair writes both, writing a half changes it. -/
def Obligations.PairsAreViewsOfTheirHalves : Prop :=
  ∀ (s : State) (v : Addr) (b : Byte),
    (s.pair .bc).toNat = s.b.toNat * 256 + s.c.toNat ∧ (s.pair .de).toNat = s.d.toNat * 256 + s.e.toNat ∧
    (s.pair .hl).toNat = s.h.toNat * 256 + s.l.toNat ∧
    (∀ p : Pair, (s.setPair p v).pair p = v ∧ Reg8Unchanged p.halves s (s.setPair p v)) ∧
    ((s.setReg8 .h b).pair .hl).toNat = b.toNat * 256 + s.l.toNat ∧
    ((s.setReg8 .l b).pair .hl).toNat = s.h.toNat * 256 + b.toNat

/-- R32: every address is in exactly one region, and the decoder names it. -/
def Obligations.EveryAddressHasOneRegion : Prop :=
  ∀ addr : Addr, ∃ r, region addr = some r ∧ r.first ≤ addr.toNat ∧ addr.toNat < r.first + r.size ∧
    offset r addr = addr.toNat - r.first ∧ ∀ q : Region, q.first ≤ addr.toNat → addr.toNat < q.first + q.size → q = r

/-- R33, R34, R40: a byte write completes, is read back at its address, and changes no other byte and no register; a byte
read completes and changes nothing. -/
def Obligations.ReadAfterWriteAtEveryAddress : Prop :=
  ∀ (addr : Addr) (v : Byte) (s : State),
    (∃ t, memWrite addr v s .next = .next t ∧ t.byteAt addr = v ∧ MemoryUnchanged [addr] s t ∧
      t.snapshot = s.snapshot ∧ OutputsUnchanged s t) ∧
    (∀ k : Byte → Out, memRead addr s k = k (s.byteAt addr))

/-- R37: Echo RAM mirrors nothing: a write to work RAM is not seen in it, nor the converse. -/
def Obligations.EchoRamMirrorsNothing : Prop :=
  ∀ (k : Nat) (v : Byte) (s t : State), k < 7680 →
    (memWrite (BitVec.ofNat 16 (0xC000 + k)) v s .next = .next t →
      t.byteAt (BitVec.ofNat 16 (0xE000 + k)) = s.byteAt (BitVec.ofNat 16 (0xE000 + k))) ∧
    (memWrite (BitVec.ofNat 16 (0xE000 + k)) v s .next = .next t →
      t.byteAt (BitVec.ofNat 16 (0xC000 + k)) = s.byteAt (BitVec.ofNat 16 (0xC000 + k)))

/-- R50, R205: a bulk load of at most 16384 bytes puts them at addresses 0 upward and changes nothing else; a longer one
fails with `BulkLoadOverflow`. -/
def Obligations.BulkLoadFillsRegionZeroOrFails : Prop :=
  ∀ (bytes : List Byte) (s : State),
    (bytes.length ≤ 16384 → ∃ t, bulkLoad bytes s = .ok t ∧ t.snapshot = s.snapshot ∧
      ∀ x : Addr, t.byteAt x = if x.toNat < bytes.length then bytes.getD x.toNat 0 else s.byteAt x) ∧
    (16384 < bytes.length → bulkLoad bytes s = .error .bulkLoadOverflow)

/-- R241 to R243: the state a run starts from, for every value of the parameters. -/
def Obligations.InitialStateOfARun : Prop :=
  ∀ (variant : RotateVariant) (romN : Vector Byte Config.romNSize) (boot : List Byte), boot.length ≤ 16384 →
    ∃ s, State.initial variant romN boot = .ok s ∧ s.snapshot = State.reset.snapshot ∧ s.pc = 0x0000 ∧
      s.rotateVariant = variant ∧ s.signal = none ∧ Inv s ∧
      ∀ x : Addr, s.byteAt x =
        if x.toNat < boot.length then boot.getD x.toNat 0
        else if 0x4000 ≤ x.toNat ∧ x.toNat < 0x8000 then romN.toList.getD (x.toNat - 0x4000) 0
        else 0x00

/-! ### Loads and stores -/

/-- R100 (register range: the spec's decision D4), the seven `LD r,n8`: ldBn8, ldCn8, ldDn8, ldEn8, ldHn8, ldLn8, ldAn8. -/
def Obligations.LoadImmediate8 : Prop :=
  ∀ (r : Reg8) (n : Byte) (s : State),
    RunsAt (.ldRN8 r n) [inFieldY 0b00_000_110 r.code, n] ∧
    ∃ t, exec (.ldRN8 r n) s = .next t ∧ t.reg8 r = n ∧ Reg8Unchanged [r] s t ∧ t.f = s.f ∧ t.sp = s.sp ∧
      t.pc = s.pc ∧ MemoryUnchanged [] s t ∧ OutputsUnchanged s t

/-- R101 (SP: the spec's D5; byte order: D7, log 5), the four `LD rr,n16`: ldBCn16, ldDEn16, ldHLn16, ldSPn16. -/
def Obligations.LoadImmediate16 : Prop :=
  ∀ (r : Reg16) (lo hi : Byte) (s : State),
    RunsAt (.ldRRN16 r (word16 lo hi)) [inFieldP 0b00_00_0001 r.code, lo, hi] ∧
    ∃ t, exec (.ldRRN16 r (word16 lo hi)) s = .next t ∧ (t.reg16 r).toNat = hi.toNat * 256 + lo.toNat ∧
      Reg8Unchanged r.halves s t ∧ (r ≠ .sp → t.sp = s.sp) ∧ t.f = s.f ∧ t.pc = s.pc ∧ MemoryUnchanged [] s t ∧
      OutputsUnchanged s t

/-- R102 to R104: ldAIndBC, ldAIndDE and the seven `LD r,[HL]` (ldBIndHL, ldCIndHL, ldDIndHL, ldEIndHL, ldHIndHL, ldLIndHL,
ldAIndHL). The address is the pair before the register is written. -/
def Obligations.LoadIndirect : Prop :=
  ∀ (i : Instr) (r : Reg8) (p : Pair) (op : Byte),
    (i = .ldAIndBC ∧ r = .a ∧ p = .bc ∧ op = 0x0A) ∨ (i = .ldAIndDE ∧ r = .a ∧ p = .de ∧ op = 0x1A) ∨
      (i = .ldRIndHL r ∧ p = .hl ∧ op = inFieldY 0b01_000_110 r.code) →
    ∀ s : State, RunsAt i [op] ∧
      ∃ t, exec i s = .next t ∧ t.reg8 r = s.byteAt (s.indirect p) ∧ s.indirect p = s.pair p ∧
        Reg8Unchanged [r] s t ∧ t.f = s.f ∧ t.sp = s.sp ∧ t.pc = s.pc ∧ MemoryUnchanged [] s t ∧ OutputsUnchanged s t

/-- R105 to R107: ldIndBCA, ldIndDEA and the seven `LD [HL],r` (ldIndHLB, ldIndHLC, ldIndHLD, ldIndHLE, ldIndHLH, ldIndHLL,
ldIndHLA). -/
def Obligations.StoreIndirect : Prop :=
  ∀ (i : Instr) (r : Reg8) (p : Pair) (op : Byte),
    (i = .ldIndBCA ∧ r = .a ∧ p = .bc ∧ op = 0x02) ∨ (i = .ldIndDEA ∧ r = .a ∧ p = .de ∧ op = 0x12) ∨
      (i = .ldIndHLR r ∧ p = .hl ∧ op = inFieldZ 0b01110_000 r.code) →
    ∀ s : State, RunsAt i [op] ∧
      ∃ t, exec i s = .next t ∧ t.byteAt (s.indirect p) = s.reg8 r ∧ s.indirect p = s.pair p ∧
        MemoryUnchanged [s.indirect p] s t ∧ Reg8Unchanged [] s t ∧ t.f = s.f ∧ t.sp = s.sp ∧ t.pc = s.pc ∧
        OutputsUnchanged s t

/-- R108, R109: ldIndHLIncA and ldIndHLDecA. The store uses HL before the update, which is modulo 2^16. -/
def Obligations.StoreAndUpdateHL : Prop :=
  ∀ s : State,
    (RunsAt .ldIndHLIncA [0x22] ∧ ∃ t, exec .ldIndHLIncA s = .next t ∧ t.byteAt (s.indirect .hl) = s.a ∧
      t.pair .hl = s.pair .hl + 1 ∧ MemoryUnchanged [s.indirect .hl] s t ∧ Reg8Unchanged [.h, .l] s t ∧ t.f = s.f ∧
      t.sp = s.sp ∧ t.pc = s.pc ∧ OutputsUnchanged s t) ∧
    (RunsAt .ldIndHLDecA [0x32] ∧ ∃ t, exec .ldIndHLDecA s = .next t ∧ t.byteAt (s.indirect .hl) = s.a ∧
      t.pair .hl = s.pair .hl - 1 ∧ MemoryUnchanged [s.indirect .hl] s t ∧ Reg8Unchanged [.h, .l] s t ∧ t.f = s.f ∧
      t.sp = s.sp ∧ t.pc = s.pc ∧ OutputsUnchanged s t)

/-- R110, R111: ldhIndA8A and ldhIndCA store A at `0xFF00` plus the operand byte, or plus C. -/
def Obligations.StoreHighPage : Prop :=
  ∀ (n : Byte) (s : State),
    (highPage n).toNat = 0xFF00 + n.toNat ∧
    (RunsAt (.ldhIndA8A n) [0xE0, n] ∧ ∃ t, exec (.ldhIndA8A n) s = .next t ∧ t.byteAt (highPage n) = s.a ∧
      MemoryUnchanged [highPage n] s t ∧ t.snapshot = s.snapshot ∧ OutputsUnchanged s t) ∧
    (RunsAt .ldhIndCA [0xE2] ∧ ∃ t, exec .ldhIndCA s = .next t ∧ t.byteAt (highPage s.c) = s.a ∧
      MemoryUnchanged [highPage s.c] s t ∧ t.snapshot = s.snapshot ∧ OutputsUnchanged s t)

/-! ### Increment, decrement, rotate -/

/-- R120 with R123, the seven `INC r`: incB, incC, incD, incE, incH, incL, incA. That C is kept is the spec's decision D10
(log 15). -/
def Obligations.IncrementRegister : Prop :=
  ∀ (r : Reg8) (s : State),
    RunsAt (.incR r) [inFieldY 0b00_000_100 r.code] ∧
    ∃ t, exec (.incR r) s = .next t ∧ (t.reg8 r).toNat = ((s.reg8 r).toNat + 1) % 256 ∧
      (t.f.z = true ↔ s.reg8 r = 0xFF) ∧ t.f.n = false ∧ (t.f.h = true ↔ (s.reg8 r).toNat % 16 = 15) ∧ t.f.c = s.f.c ∧
      Reg8Unchanged [r] s t ∧ t.sp = s.sp ∧ t.pc = s.pc ∧ MemoryUnchanged [] s t ∧ OutputsUnchanged s t

/-- R121 with R123, the seven `DEC r`: decB, decC, decD, decE, decH, decL, decA. That C is kept is the spec's decision D10
(log 15). -/
def Obligations.DecrementRegister : Prop :=
  ∀ (r : Reg8) (s : State),
    RunsAt (.decR r) [inFieldY 0b00_000_101 r.code] ∧
    ∃ t, exec (.decR r) s = .next t ∧ (t.reg8 r).toNat = ((s.reg8 r).toNat + 255) % 256 ∧
      (t.f.z = true ↔ s.reg8 r = 0x01) ∧ t.f.n = true ∧ (t.f.h = true ↔ (s.reg8 r).toNat % 16 = 0) ∧ t.f.c = s.f.c ∧
      Reg8Unchanged [r] s t ∧ t.sp = s.sp ∧ t.pc = s.pc ∧ MemoryUnchanged [] s t ∧ OutputsUnchanged s t

/-- R122 (SP: the spec's D5), the four `INC rr`: incBC, incDE, incHL, incSP. -/
def Obligations.IncrementPair : Prop :=
  ∀ (r : Reg16) (s : State),
    RunsAt (.incRR r) [inFieldP 0b00_00_0011 r.code] ∧
    ∃ t, exec (.incRR r) s = .next t ∧ (t.reg16 r).toNat = ((s.reg16 r).toNat + 1) % 65536 ∧ Reg8Unchanged r.halves s t ∧
      (r ≠ .sp → t.sp = s.sp) ∧ t.f = s.f ∧ t.pc = s.pc ∧ MemoryUnchanged [] s t ∧ OutputsUnchanged s t

/-- R130 to R132 (the spec's decision D8, log 1), in both values of `ROTATE_VARIANT`: rla and the seven `RLC r` (rlcB, rlcC, rlcD, rlcE, rlcH, rlcL,
rlcA). -/
def Obligations.RotateLeft : Prop :=
  ∀ (i : Instr) (r : Reg8) (bytes : List Byte),
    (i = .rla ∧ r = .a ∧ bytes = [0x17]) ∨ (i = .rlcR r ∧ bytes = [0xCB, inFieldZ 0b00000_000 r.code]) →
    ∀ s : State, RunsAt i bytes ∧
      ∃ t, exec i s = .next t ∧ (∀ k, k < 7 → (t.reg8 r).getLsbD (k + 1) = (s.reg8 r).getLsbD k) ∧
        (s.rotateVariant = .circular → (t.reg8 r).getLsbD 0 = (s.reg8 r).getLsbD 7) ∧
        (s.rotateVariant = .throughCarry → (t.reg8 r).getLsbD 0 = s.f.c) ∧
        t.f.z = false ∧ t.f.n = false ∧ t.f.h = false ∧ t.f.c = (s.reg8 r).getLsbD 7 ∧
        Reg8Unchanged [r] s t ∧ t.sp = s.sp ∧ t.pc = s.pc ∧ MemoryUnchanged [] s t ∧ OutputsUnchanged s t

/-- R132: eight circular rotates restore a byte and nine rotates through carry restore the byte and the carry. -/
def Obligations.RotatesRestoreTheByte : Prop :=
  ∀ (v : Byte) (c : Bool),
    ((fun x => (rotL .circular x c).res)^[8]) v = v ∧
    ((fun x : Byte × Bool => ((rotL .throughCarry x.1 x.2).res, (rotL .throughCarry x.1 x.2).out))^[9]) (v, c) = (v, c)

/-! ### Add, exclusive-or, compare, bit test -/

/-- R140 with R144: addAIndHL. The formulas of H and C are the spec's decision D11 (log 15). -/
def Obligations.AddMemoryToA : Prop :=
  ∀ (s : State) (v : Byte), v = s.byteAt (s.indirect .hl) →
    RunsAt .addAIndHL [0x86] ∧
    ∃ t, exec .addAIndHL s = .next t ∧ t.a.toNat = (s.a.toNat + v.toNat) % 256 ∧
      (t.f.z = true ↔ t.a = 0) ∧ t.f.n = false ∧ (t.f.h = true ↔ s.a.toNat % 16 + v.toNat % 16 > 15) ∧
      (t.f.c = true ↔ s.a.toNat + v.toNat > 255) ∧
      Reg8Unchanged [.a] s t ∧ t.sp = s.sp ∧ t.pc = s.pc ∧ MemoryUnchanged [] s t ∧ OutputsUnchanged s t

/-- R141: xorAA gives zero and `F = 0x80` whatever A and F were. -/
def Obligations.XorAWithItself : Prop :=
  ∀ s : State, RunsAt .xorAA [0xAF] ∧
    ∃ t, exec .xorAA s = .next t ∧ t.a = 0x00 ∧ t.snapshot.f = 0x80 ∧ Reg8Unchanged [.a] s t ∧ t.sp = s.sp ∧
      t.pc = s.pc ∧ MemoryUnchanged [] s t ∧ OutputsUnchanged s t

/-- R142, R143 with R145: cpAn8 and cpAIndHL; A is not written. -/
def Obligations.CompareWithA : Prop :=
  ∀ (i : Instr) (bytes : List Byte) (v : Byte) (s : State),
    (i = .cpAn8 v ∧ bytes = [0xFE, v]) ∨ (i = .cpAIndHL ∧ v = s.byteAt (s.indirect .hl) ∧ bytes = [0xBE]) →
    RunsAt i bytes ∧
    ∃ t, exec i s = .next t ∧ (t.f.z = true ↔ s.a = v) ∧ t.f.n = true ∧
      (t.f.h = true ↔ s.a.toNat % 16 < v.toNat % 16) ∧ (t.f.c = true ↔ s.a.toNat < v.toNat) ∧
      Reg8Unchanged [] s t ∧ t.sp = s.sp ∧ t.pc = s.pc ∧ MemoryUnchanged [] s t ∧ OutputsUnchanged s t

/-- R171, the 56 `BIT b,r`: bit0B to bit7A; the register is only read and C is kept. -/
def Obligations.BitTest : Prop :=
  ∀ (b : Fin 8) (r : Reg8) (s : State),
    RunsAt (.bitBR b r) [0xCB, 0b01_000_000 ||| BitVec.ofNat 8 (8 * b.val) ||| r.code] ∧
    ∃ t, exec (.bitBR b r) s = .next t ∧ (t.f.z = true ↔ (s.reg8 r).getLsbD b.val = false) ∧ t.f.n = false ∧
      t.f.h = true ∧ t.f.c = s.f.c ∧ Reg8Unchanged [] s t ∧ t.sp = s.sp ∧ t.pc = s.pc ∧ MemoryUnchanged [] s t ∧
      OutputsUnchanged s t

/-! ### Control flow and stack -/

/-- R150: jrNZe8, taken exactly when Z is clear, relative to the PC that has passed the displacement. -/
def Obligations.JumpRelativeIfNotZero : Prop :=
  ∀ (e : Byte) (s : State),
    RunsAt (.jrNZe8 e) [0x20, e] ∧
    (s.f.z = false → exec (.jrNZe8 e) s = .next { s with pc := s.pc + BitVec.ofInt 16 e.toInt }) ∧
    (s.f.z = true → exec (.jrNZe8 e) s = .next s)

/-- R151, R154: callA16 pushes the PC that has passed the immediate, high byte at the higher address (the
spec's decision D9, log 16), and jumps. -/
def Obligations.CallPushesTheReturnAddress : Prop :=
  ∀ (lo hi : Byte) (s : State),
    RunsAt (.callA16 (word16 lo hi)) [0xCD, lo, hi] ∧
    ∃ t, exec (.callA16 (word16 lo hi)) s = .next t ∧ t.pc.toNat = hi.toNat * 256 + lo.toNat ∧ t.sp = s.sp - 2 ∧
      (t.byteAt (s.sp - 1)).toNat = s.pc.toNat / 256 ∧ (t.byteAt (s.sp - 2)).toNat = s.pc.toNat % 256 ∧
      MemoryUnchanged [s.sp - 1, s.sp - 2] s t ∧ Reg8Unchanged [] s t ∧ t.f = s.f ∧ OutputsUnchanged s t

/-- R152: ret pops the low byte, then the high byte, into PC. -/
def Obligations.ReturnPopsPC : Prop :=
  ∀ s : State, RunsAt .ret [0xC9] ∧
    ∃ t, exec .ret s = .next t ∧ t.pc.toNat = (s.byteAt (s.sp + 1)).toNat * 256 + (s.byteAt s.sp).toNat ∧
      t.sp = s.sp + 2 ∧ MemoryUnchanged [] s t ∧ Reg8Unchanged [] s t ∧ t.f = s.f ∧ OutputsUnchanged s t

/-- R153: a CALL and the RET at its target leave PC after the CALL and SP as it was. The premise says that the CALL is at
PC and that RET is what the fetch at the target reads once the return address is on the stack. -/
def Obligations.CallThenReturnComesBack : Prop :=
  ∀ (s t : State) (target : Addr) (rest : List Byte), decode s.window = .ok (.callA16 target, rest) →
    step s = .next t → t.byteAt target = 0xC9 →
    ∃ u, step t = .next u ∧ u.pc = s.pc + 3 ∧ u.sp = s.sp ∧ u.f = s.f ∧ Reg8Unchanged [] s u

/-- R160: pushBC, pushDE, pushHL. High byte first is the spec's decision D9 (log 16). -/
def Obligations.PushPair : Prop :=
  ∀ (p : Pair) (s : State),
    RunsAt (.pushRR p) [inFieldP 0b11_00_0101 p.code] ∧
    ∃ t, exec (.pushRR p) s = .next t ∧ t.sp = s.sp - 2 ∧ (t.byteAt (s.sp - 1)).toNat = (s.pair p).toNat / 256 ∧
      (t.byteAt (s.sp - 2)).toNat = (s.pair p).toNat % 256 ∧ MemoryUnchanged [s.sp - 1, s.sp - 2] s t ∧
      Reg8Unchanged [] s t ∧ t.f = s.f ∧ t.pc = s.pc ∧ OutputsUnchanged s t

/-- R161: popBC, popDE, popHL. -/
def Obligations.PopPair : Prop :=
  ∀ (p : Pair) (s : State),
    RunsAt (.popRR p) [inFieldP 0b11_00_0001 p.code] ∧
    ∃ t, exec (.popRR p) s = .next t ∧
      (t.pair p).toNat = (s.byteAt (s.sp + 1)).toNat * 256 + (s.byteAt s.sp).toNat ∧ t.sp = s.sp + 2 ∧
      Reg8Unchanged p.halves s t ∧ MemoryUnchanged [] s t ∧ t.f = s.f ∧ t.pc = s.pc ∧ OutputsUnchanged s t

/-- R162: a PUSH and a POP, of any two pairs, move the value and leave SP, the flags and the other registers. -/
def Obligations.PushThenPopMovesThePair : Prop :=
  ∀ (p q : Pair) (s : State), ∃ t u, exec (.pushRR p) s = .next t ∧ exec (.popRR q) t = .next u ∧
    u.pair q = s.pair p ∧ u.sp = s.sp ∧ u.f = s.f ∧ Reg8Unchanged q.halves s u

/-! ### Unimplemented opcodes and the driver -/

/-- R201, R202 (the space tag is the spec's D12): unimplementedPrimary and unimplementedExtended signal and change nothing
else; at a Step, PC has passed one byte, or two. -/
def Obligations.UnimplementedSignalsAndGoesOn : Prop :=
  (∀ (op : Byte) (s : State),
    exec (.unimplementedPrimary op) s = .next { s with signal := some ⟨.primary, op⟩ } ∧
    (op ∈ unimplementedPrimaryValues → s.byteAt s.pc = op →
      step s = .next { s with pc := s.pc + 1, signal := some ⟨.primary, op⟩ })) ∧
  (∀ (x : Byte) (s : State),
    exec (.unimplementedExtended x) s = .next { s with signal := some ⟨.extended, x⟩ } ∧
    (unimplementedExtendedValue x = true → s.byteAt s.pc = 0xCB → s.byteAt (s.pc + 1) = x →
      step s = .next { s with pc := s.pc + 2, signal := some ⟨.extended, x⟩ }))

/-- R244 (and the note of R67): over storage that is zero everywhere, every Step signals `(primary, 0x00)` and PC counts up
by one. -/
def Obligations.EmptyStorageSignalsEveryStep : Prop :=
  ∀ (n : Nat) (s : State), (∀ x : Addr, s.byteAt x = 0x00) →
    ∃ r, drive .continueRun n s = .next r ∧ r.final.pc = s.pc + BitVec.ofNat 16 n ∧
      r.signals = List.replicate n (some ⟨.primary, 0x00⟩)

/-- R206, R255: with `UNIMPL_POLICY = continue` a run of `n` Steps makes all of them, whatever they signal. -/
def Obligations.ContinuePolicyMakesEveryStep : Prop :=
  ∀ (n : Nat) (s : State), ∃ r, drive .continueRun n s = .next r ∧ r.signals.length = n

/-- R206: with `UNIMPL_POLICY = stop` a run ends after its first signal, and otherwise makes all its Steps. -/
def Obligations.StopPolicyEndsAtTheFirstSignal : Prop :=
  ∀ (n : Nat) (s : State), ∃ r, drive .stopRun n s = .next r ∧ (∀ x ∈ r.signals.dropLast, x = none) ∧
    (r.signals.length = n ∨ (r.signals.length < n ∧ ∃ sig, r.signals.getLast? = some (some sig)))

/-- R255 with `RUN_LENGTH` a Step count `n` (the spec's D22, log 12): the run ends, after at most `n` Steps, and after exactly
`n` under `continue`. -/
def Obligations.RunOfNStepsEnds : Prop :=
  ∀ (policy : UnimplPolicy) (n : Nat) (s : State), ∃ r, drive policy n s = .next r ∧ RunEnds policy (.steps n) s r ∧
    r.signals.length ≤ n ∧ (policy = .continueRun → r.signals.length = n)

/-- R255 with `RUN_LENGTH` unbounded (D22, log 12): under `continue` every number of Steps is made, and the run never ends. -/
def Obligations.UnboundedRunUnderContinueNeverEnds : Prop :=
  ∀ s : State, (∀ k, ∃ r, runSeq .continueRun .unbounded s k = .next r ∧ r.signals.length = k) ∧
    ∀ r, ¬ RunEnds .continueRun .unbounded s r

/-- R206, R255: an unbounded run under `stop` ends exactly if some Step of the run without the policy signals, and then its
last Step signals and no other does. -/
def Obligations.UnboundedRunUnderStopEndsExactlyAtASignal : Prop :=
  ∀ s : State,
    ((∃ r, RunEnds .stopRun .unbounded s r) ↔ ∃ k r sig, drive .continueRun k s = .next r ∧ some sig ∈ r.signals) ∧
    ∀ r, RunEnds .stopRun .unbounded s r → (∃ sig, r.signals.getLast? = some (some sig)) ∧
      ∀ x ∈ r.signals.dropLast, x = none

/-- R7, R205, R242: a run under the five parameters starts in their initial state, unless the load fails; with every
parameter at its default it is the unbounded `continue` run from reset. -/
def Obligations.RunUnderTheParameters : Prop :=
  (∀ p : Parameters, p.bootImage.length ≤ 16384 →
    ∃ s, State.initial p.rotateVariant p.romNImage p.bootImage = .ok s ∧
      runFromReset p = .ok (runSeq p.unimplPolicy p.runLength s)) ∧
  (∀ p : Parameters, 16384 < p.bootImage.length → runFromReset p = .error .bulkLoadOverflow) ∧
  runFromReset {} = .ok (runSeq .continueRun .unbounded State.reset)
end

