-- ==== Sys2Proof/Laws/Decode.lean ====
section
/-! SUPPORT. The opcode maps: no value has two rows, the values without a row are those the spec lists, and the words of an
immediate assemble back. -/

namespace Sys2Proof

/-- No primary opcode value has two rows (R66). -/
theorem primaryRows_nodup : (primaryRows.map Prod.fst).Nodup := by decide

/-- No extended opcode value has two rows (R68). -/
theorem extendedRows_nodup : (extendedRows.map Prod.fst).Nodup := by decide

/-- The number of implemented values in each space (R66, R68). -/
theorem rows_length : primaryRows.length = 66 ∧ extendedRows.length = 63 := by decide

theorem lookup_eq_none_iff {α : Type} (rows : List (Byte × α)) (op : Byte) :
    rows.lookup op = none ↔ (rows.map Prod.fst).contains op = false := by
  induction rows with
  | nil => simp
  | cons r rest ih =>
    obtain ⟨k, v⟩ := r
    by_cases h : op = k
    · simp [h]
    · have h' : (op == k) = false := by simpa using h
      simp only [List.lookup_cons, h', ih, List.map_cons, List.contains_cons, Bool.false_or]

/-- The primary values without a row are exactly the 190 of R67. -/
theorem primary_lookup_none_iff (op : Byte) :
    primaryRows.lookup op = none ↔ unimplementedPrimaryValues.contains op = true := by
  rw [lookup_eq_none_iff]
  revert op
  decide +kernel

/-- The extended values without a row are exactly the 193 of R69. -/
theorem extended_lookup_none_iff (x : Byte) :
    extendedRows.lookup x = none ↔ unimplementedExtendedValue x = true := by
  rw [lookup_eq_none_iff]
  revert x
  decide +kernel

theorem primaryEntry_of_unimplemented {op : Byte} (h : unimplementedPrimaryValues.contains op = true) :
    primaryEntry op = .op (.unimplementedPrimary op) := by
  simp only [primaryEntry, (primary_lookup_none_iff op).mpr h]

theorem decodeExtended_of_unimplemented {x : Byte} (h : unimplementedExtendedValue x = true) :
    decodeExtended x = .unimplementedExtended x := by
  simp only [decodeExtended, (extended_lookup_none_iff x).mpr h]

/-- A row found in a table is a row of it: the case split over a table is over its rows. -/
theorem mem_of_lookup_eq_some {α : Type} {rows : List (Byte × α)} {op : Byte} {e : α} (h : rows.lookup op = some e) :
    (op, e) ∈ rows := by
  induction rows with
  | nil => simp at h
  | cons r rest ih =>
    obtain ⟨k, v⟩ := r
    rw [List.lookup_cons] at h
    by_cases hk : op = k
    · subst hk
      simp at h
      simp [h]
    · have h' : (op == k) = false := by simpa using hk
      rw [h'] at h
      exact List.mem_cons_of_mem _ (ih h)

theorem getLsbD_word16 (lo hi : Byte) (i : Nat) :
    (word16 lo hi).getLsbD i = if i < 8 then lo.getLsbD i else hi.getLsbD (i - 8) :=
  BitVec.getLsbD_append (x := hi) (y := lo) (i := i)

@[simp] theorem word16_imm (v : Addr) : word16 (immLow v) (immHigh v) = v := by
  apply BitVec.eq_of_getLsbD_eq
  intro i hi
  rw [getLsbD_word16]
  unfold immLow immHigh
  split
  · simp_all
  · have h1 : i - 8 < 8 := by omega
    have h2 : 8 + (i - 8) = i := by omega
    simp [h1, h2]

@[simp] theorem immLow_word16 (lo hi : Byte) : immLow (word16 lo hi) = lo := by
  apply BitVec.eq_of_getLsbD_eq
  intro i h
  simp [immLow, getLsbD_word16, h]

@[simp] theorem immHigh_word16 (lo hi : Byte) : immHigh (word16 lo hi) = hi := by
  apply BitVec.eq_of_getLsbD_eq
  intro i h
  simp [immHigh, getLsbD_word16, h]

end Sys2Proof
end

