-- ==== Sys2Proof/Laws/Memory.lean ====
section
/-! SUPPORT. Storage: reading after writing, and that every operation keeps the canonical form. -/

namespace Sys2Proof.Machine

theorem Memory.read_erase (m : Memory) (key k : Nat) :
    (Memory.erase m key).read k = if key = k then Memory.unlisted else m.read k := by
  induction m with
  | nil => simp [Memory.erase, Memory.read]
  | cons x rest ih =>
    obtain ⟨j, v⟩ := x
    by_cases hj : j = key
    · by_cases hk : key = k <;> simp_all [Memory.erase, Memory.read]
    · by_cases hk : j = k
      · have : key ≠ k := fun h => hj (hk.trans h.symm)
        subst hk
        simp [Memory.erase, Memory.read, hj, this]
      · simp [Memory.erase, Memory.read, hj, hk, ih]

theorem Memory.read_insert (m : Memory) (key : Nat) (v : Byte) (k : Nat) (h : m.read key = Memory.unlisted)
    (hm : ∀ x ∈ m, x.1 ≠ key) : (Memory.insert m key v).read k = if key = k then v else m.read k := by
  induction m with
  | nil => simp [Memory.insert, Memory.read]
  | cons x rest ih =>
    obtain ⟨j, w⟩ := x
    have hj : j ≠ key := hm (j, w) (by simp)
    have hrest : ∀ x ∈ rest, x.1 ≠ key := fun x hx => hm x (by simp [hx])
    have ih' := ih (by simpa [Memory.read, hj] using h) hrest
    by_cases hlt : key < j
    · simp [Memory.insert, Memory.read, hlt]
    · by_cases hk : j = k
      · have : key ≠ k := fun h => hj (hk.trans h.symm)
        subst hk
        simp [Memory.insert, Memory.read, hlt, this]
      · simp [Memory.insert, Memory.read, hlt, hk, ih']

theorem Memory.mem_erase {m : Memory} {key : Nat} {x : Host.Cell} :
    x ∈ Memory.erase m key ↔ x ∈ m ∧ x.1 ≠ key := by
  induction m with
  | nil => simp [Memory.erase]
  | cons y rest ih =>
    obtain ⟨j, w⟩ := y
    by_cases hj : j = key
    · simp only [Memory.erase, hj, if_true, ih, List.mem_cons]
      constructor
      · exact fun h => ⟨.inr h.1, h.2⟩
      · rintro ⟨rfl | h, hne⟩
        · exact absurd rfl hne
        · exact ⟨h, hne⟩
    · simp only [Memory.erase, hj, if_false, ih, List.mem_cons]
      constructor
      · rintro (rfl | h)
        · exact ⟨.inl rfl, hj⟩
        · exact ⟨.inr h.1, h.2⟩
      · rintro ⟨rfl | h, hne⟩
        · exact .inl rfl
        · exact .inr ⟨h, hne⟩

theorem Memory.mem_insert {m : Memory} {key : Nat} {v : Byte} {x : Host.Cell} :
    x ∈ Memory.insert m key v ↔ x = (key, v) ∨ x ∈ m := by
  induction m with
  | nil => simp [Memory.insert]
  | cons y rest ih =>
    obtain ⟨j, w⟩ := y
    by_cases hlt : key < j
    · simp [Memory.insert, hlt]
    · simp [Memory.insert, hlt, ih, or_left_comm]

/-- Reading after writing one byte (R34, R40), on any list of pairs. -/
theorem Memory.read_write (m : Memory) (key : Nat) (v : Byte) (k : Nat) :
    (m.write key v).read k = if key = k then v else m.read k := by
  unfold Memory.write
  split
  · rename_i hv
    rw [Memory.read_erase, hv]
  · rw [Memory.read_insert _ _ _ _ (by simp [Memory.read_erase]) (fun x hx => (Memory.mem_erase.mp hx).2),
      Memory.read_erase]
    split <;> rfl

@[simp] theorem Memory.read_write_self (m : Memory) (key : Nat) (v : Byte) : (m.write key v).read key = v := by
  simp [Memory.read_write]

theorem Memory.read_write_of_ne (m : Memory) {key k : Nat} (v : Byte) (h : key ≠ k) :
    (m.write key v).read k = m.read k := by
  simp [Memory.read_write, h]

theorem Memory.wf_erase {m : Memory} (key : Nat) (h : m.wf) : Memory.wf (Memory.erase m key) := by
  refine ⟨?_, fun x hx => h.2 x (Memory.mem_erase.mp hx).1⟩
  have hp := h.1
  clear h
  induction m with
  | nil => simp [Memory.erase]
  | cons y rest ih =>
    obtain ⟨j, w⟩ := y
    rw [List.pairwise_cons] at hp
    by_cases hj : j = key
    · simpa [Memory.erase, hj] using ih hp.2
    · simp only [Memory.erase, hj, if_false, List.pairwise_cons]
      exact ⟨fun x hx => hp.1 x (Memory.mem_erase.mp hx).1, ih hp.2⟩

theorem Memory.wf_insert {m : Memory} {key : Nat} {v : Byte} (h : m.wf) (hm : ∀ x ∈ m, x.1 ≠ key)
    (hk : key < 65536) (hv : v ≠ Memory.unlisted) : Memory.wf (Memory.insert m key v) := by
  constructor
  · have hp := h.1
    clear h
    induction m with
    | nil => simp [Memory.insert]
    | cons y rest ih =>
      obtain ⟨j, w⟩ := y
      rw [List.pairwise_cons] at hp
      have hj : j ≠ key := hm (j, w) (by simp)
      by_cases hlt : key < j
      · simp only [Memory.insert, hlt, if_true, List.pairwise_cons]
        refine ⟨fun x hx => ?_, hp.1, hp.2⟩
        rcases List.mem_cons.mp hx with rfl | hx
        · exact hlt
        · exact Nat.lt_trans hlt (hp.1 x hx)
      · simp only [Memory.insert, hlt, if_false, List.pairwise_cons]
        refine ⟨fun x hx => ?_, ih (fun x hx => hm x (by simp [hx])) hp.2⟩
        rcases Memory.mem_insert.mp hx with rfl | hx
        · show j < key
          omega
        · exact hp.1 x hx
  · intro x hx
    rcases Memory.mem_insert.mp hx with rfl | hx
    · exact ⟨hk, hv⟩
    · exact h.2 x hx

/-- A write inside the address space keeps the canonical form. -/
theorem Memory.wf_write {m : Memory} {key : Nat} {v : Byte} (h : m.wf) (hk : key < 65536) :
    Memory.wf (m.write key v) := by
  unfold Memory.write
  split
  · exact Memory.wf_erase key h
  · exact Memory.wf_insert (Memory.wf_erase key h) (fun x hx => (Memory.mem_erase.mp hx).2) hk ‹_›

theorem Memory.wf_writeAll {m : Memory} {key : Nat} {vs : List Byte} (h : m.wf) (hk : key + vs.length ≤ 65536) :
    Memory.wf (m.writeAll key vs) := by
  induction vs generalizing m key with
  | nil => exact h
  | cons v vs ih =>
    simp only [List.length_cons] at hk
    exact ih (Memory.wf_write h (by omega)) (by omega)

theorem Memory.read_writeAll_below {m : Memory} {key : Nat} {vs : List Byte} {k : Nat} (h : k < key) :
    (m.writeAll key vs).read k = m.read k := by
  induction vs generalizing m key with
  | nil => rfl
  | cons v vs ih =>
    rw [Memory.writeAll, ih (by omega), Memory.read_write_of_ne _ _ (by omega)]

/-- What is read after bytes are written at consecutive cells (R50, R241). -/
theorem Memory.read_writeAll (m : Memory) (key : Nat) (vs : List Byte) (k : Nat) :
    (m.writeAll key vs).read k =
      if h : key ≤ k ∧ k < key + vs.length then vs[k - key]'(by omega) else m.read k := by
  induction vs generalizing m key with
  | nil => simp [Memory.writeAll]
  | cons v vs ih =>
    rw [Memory.writeAll, ih]
    by_cases h0 : key = k
    · subst h0
      simp
    · by_cases h : key + 1 ≤ k ∧ k < key + 1 + vs.length
      · have h' : key ≤ k ∧ k < key + (v :: vs).length := by simp only [List.length_cons]; omega
        simp only [h, h', and_self, dite_true]
        have : k - key = (k - (key + 1)) + 1 := by omega
        simp [this]
      · have h' : ¬ (key ≤ k ∧ k < key + (v :: vs).length) := by simp only [List.length_cons]; omega
        simp only [h, h', dite_false]
        exact Memory.read_write_of_ne _ _ h0

/-- The same, with the byte picked by `List.getD`. -/
theorem Memory.read_writeAll_getD (m : Memory) (key : Nat) (vs : List Byte) (k : Nat) :
    (m.writeAll key vs).read k = if key ≤ k ∧ k < key + vs.length then vs.getD (k - key) 0 else m.read k := by
  rw [Memory.read_writeAll]
  split
  · have : k - key < vs.length := by omega
    simp [List.getD_eq_getElem?_getD, this]
  · rfl

theorem Memory.read_eq_unlisted {m : Memory} {k : Nat} (h : ∀ x ∈ m, k < x.1) : m.read k = Memory.unlisted := by
  induction m with
  | nil => rfl
  | cons y rest ih =>
    obtain ⟨j, w⟩ := y
    have hj : k < j := h (j, w) (by simp)
    have : j ≠ k := by omega
    simp only [Memory.read, this, if_false]
    exact ih fun x hx => h x (by simp [hx])

/-- The canonical form is one form per content: canonical memories that read the same everywhere are equal. -/
theorem Memory.eq_of_read_eq {m m' : Memory} (h : m.wf) (h' : m'.wf) (hr : ∀ k, m.read k = m'.read k) : m = m' := by
  have head_listed : ∀ {j w rest}, Memory.wf ((j, w) :: rest) → Memory.read ((j, w) :: rest) j ≠ Memory.unlisted :=
    fun {j w rest} h => by simpa [Memory.read] using (h.2 (j, w) (by simp)).2
  have tail_wf : ∀ {x rest}, Memory.wf (x :: rest) → Memory.wf rest :=
    fun h => ⟨(List.pairwise_cons.mp h.1).2, fun y hy => h.2 y (by simp [hy])⟩
  have above : ∀ {x rest k}, Memory.wf (x :: rest) → k < x.1 → Memory.read (x :: rest) k = Memory.unlisted := by
    intro x rest k h hk
    refine Memory.read_eq_unlisted fun y hy => ?_
    rcases List.mem_cons.mp hy with rfl | hy
    · exact hk
    · exact Nat.lt_trans hk ((List.pairwise_cons.mp h.1).1 y hy)
  have tail_above : ∀ {x rest k}, Memory.wf (x :: rest) → k ≤ x.1 → Memory.read rest k = Memory.unlisted := by
    intro x rest k h hk
    exact Memory.read_eq_unlisted fun y hy => Nat.lt_of_le_of_lt hk ((List.pairwise_cons.mp h.1).1 y hy)
  induction m generalizing m' with
  | nil =>
    cases m' with
    | nil => rfl
    | cons y rest' => exact absurd (hr y.1).symm (head_listed h')
  | cons x rest ih =>
    cases m' with
    | nil => exact absurd (hr x.1) (head_listed h)
    | cons y rest' =>
      obtain ⟨j, w⟩ := x
      obtain ⟨j', w'⟩ := y
      have hj : j = j' := by
        rcases Nat.lt_trichotomy j j' with hlt | heq | hgt
        · exact absurd ((hr j).trans (above h' hlt)) (head_listed h)
        · exact heq
        · exact absurd ((hr j').symm.trans (above h hgt)) (head_listed h')
      subst hj
      have hw : w = w' := by simpa [Memory.read] using hr j
      subst hw
      congr 1
      refine ih (tail_wf h) (tail_wf h') fun k => ?_
      by_cases hk : j = k
      · rw [tail_above h (Nat.le_of_eq hk.symm), tail_above h' (Nat.le_of_eq hk.symm)]
      · simpa [Memory.read, hk] using hr k

end Sys2Proof.Machine
end

