-- ==== Sys2Proof/Laws/Driver.lean ====
section
/-! SUPPORT. The driver: one equation for each way a Step ends, the run of each length, and the image that changes nothing. -/

namespace Sys2Proof.Machine

theorem drive_zero (policy : UnimplPolicy) (s : State) : drive policy 0 s = .next { final := s, signals := [] } := rfl

/-- After a Step at which the driver goes on, the rest of the run follows (R206). -/
theorem drive_goes_on {policy : UnimplPolicy} {s t : State} {r : RunRecord} {n : Nat} (hs : step s = .next t)
    (hp : ¬ (policy = .stopRun ∧ t.signal.isSome)) (hr : drive policy n t = .next r) :
    drive policy (n + 1) s = .next { final := r.final, signals := t.signal :: r.signals } := by
  simp only [drive, hs, if_neg hp, hr]

/-- A Step that signals under `stop` is the last (R206). -/
theorem drive_stops {s t : State} (n : Nat) (hs : step s = .next t) (ht : t.signal.isSome) :
    drive .stopRun (n + 1) s = .next { final := t, signals := [t.signal] } := by
  simp only [drive, hs, ht, and_self, if_true]

@[simp] theorem runSeq_unbounded (policy : UnimplPolicy) (s : State) (k : Nat) :
    runSeq policy .unbounded s k = drive policy k s := rfl

theorem runSeq_steps_of_le (policy : UnimplPolicy) (s : State) {n k : Nat} (h : n ≤ k) :
    runSeq policy (.steps n) s k = drive policy n s := by
  simp only [runSeq, stepsAllowed, Nat.min_eq_left h]

theorem runSeq_steps_of_ge (policy : UnimplPolicy) (s : State) {n k : Nat} (h : k ≤ n) :
    runSeq policy (.steps n) s k = drive policy k s := by
  simp only [runSeq, stepsAllowed, Nat.min_eq_right h]

/-- An image of zeros leaves storage that lists nothing as it was. -/
theorem Memory.writeAll_replicate_zero (key n : Nat) : Memory.writeAll [] key (List.replicate n 0) = [] := by
  induction n generalizing key with
  | zero => rfl
  | succ n ih => exact ih (key + 1)

/-- The empty boot image changes nothing (R50). -/
theorem bulkLoad_nil (s : State) : bulkLoad [] s = .ok s := rfl

/-- The default ROM bank N image changes nothing in storage that lists nothing (R241). -/
theorem loadRomN_default {s : State} (h : s.mem = []) : loadRomN Config.defaultRomNImage s = s := by
  unfold loadRomN Config.defaultRomNImage
  rw [h, Vector.toList_replicate, Memory.writeAll_replicate_zero, ← h]

end Sys2Proof.Machine
end

