-- ==== Sys2Proof/Laws/State.lean ====
section
/-! SUPPORT. One lemma per field and per named update of the state: what an accessor or a field reads after it. -/

namespace Sys2Proof.Machine

section setReg8
variable (s : State) (r q : Reg8) (v : Byte)

@[simp] theorem State.setReg8_f : (s.setReg8 r v).f = s.f := by cases r <;> rfl
@[simp] theorem State.setReg8_pc : (s.setReg8 r v).pc = s.pc := by cases r <;> rfl
@[simp] theorem State.setReg8_sp : (s.setReg8 r v).sp = s.sp := by cases r <;> rfl
@[simp] theorem State.setReg8_mem : (s.setReg8 r v).mem = s.mem := by cases r <;> rfl
@[simp] theorem State.setReg8_rotateVariant : (s.setReg8 r v).rotateVariant = s.rotateVariant := by cases r <;> rfl
@[simp] theorem State.setReg8_signal : (s.setReg8 r v).signal = s.signal := by cases r <;> rfl
@[simp] theorem State.setReg8_byteAt (x : Addr) : (s.setReg8 r v).byteAt x = s.byteAt x := by cases r <;> rfl

@[simp] theorem State.reg8_setReg8_self : (s.setReg8 r v).reg8 r = v := by cases r <;> rfl

theorem State.reg8_setReg8_of_ne (h : q ≠ r) : (s.setReg8 r v).reg8 q = s.reg8 q := by
  cases r <;> cases q <;> first | rfl | exact absurd rfl h

end setReg8

section pairs
variable (s : State) (p : Pair) (v : Addr)

theorem getLsbD_append8 (hi lo : Byte) (i : Nat) :
    BitVec.getLsbD (hi ++ lo : Addr) i = if i < 8 then lo.getLsbD i else hi.getLsbD (i - 8) := by
  exact BitVec.getLsbD_append (x := hi) (y := lo) (i := i)

@[simp] theorem highByte_append (hi lo : Byte) : highByte (hi ++ lo) = hi := by
  unfold highByte
  ext i h
  rw [BitVec.getElem_extractLsb', getLsbD_append8]
  simp [← BitVec.getLsbD_eq_getElem]

@[simp] theorem lowByte_append (hi lo : Byte) : lowByte (hi ++ lo) = lo := by
  unfold lowByte
  ext i h
  rw [BitVec.getElem_extractLsb', getLsbD_append8]
  simp [← BitVec.getLsbD_eq_getElem, h]

@[simp] theorem highByte_append_lowByte : highByte v ++ lowByte v = v := by
  unfold highByte lowByte; ext i
  simp only [BitVec.getElem_append, BitVec.getElem_extractLsb']
  split <;> simp_all [BitVec.getLsbD_eq_getElem]

@[simp] theorem State.setPair_a : (s.setPair p v).a = s.a := by cases p <;> rfl
@[simp] theorem State.setPair_f : (s.setPair p v).f = s.f := by cases p <;> rfl
@[simp] theorem State.setPair_pc : (s.setPair p v).pc = s.pc := by cases p <;> rfl
@[simp] theorem State.setPair_sp : (s.setPair p v).sp = s.sp := by cases p <;> rfl
@[simp] theorem State.setPair_mem : (s.setPair p v).mem = s.mem := by cases p <;> rfl
@[simp] theorem State.setPair_rotateVariant : (s.setPair p v).rotateVariant = s.rotateVariant := by cases p <;> rfl
@[simp] theorem State.setPair_signal : (s.setPair p v).signal = s.signal := by cases p <;> rfl
@[simp] theorem State.setPair_byteAt (x : Addr) : (s.setPair p v).byteAt x = s.byteAt x := by cases p <;> rfl

/-- A pair reads back what was written to it (R11). -/
@[simp] theorem State.pair_setPair_self : (s.setPair p v).pair p = v := by
  cases p <;> exact highByte_append_lowByte v

theorem State.pair_setPair_of_ne (q : Pair) (h : q ≠ p) : (s.setPair p v).pair q = s.pair q := by
  cases p <;> cases q <;> first | rfl | exact absurd rfl h

end pairs

section reg16
variable (s : State) (r : Reg16) (v : Addr)

@[simp] theorem State.setReg16_a : (s.setReg16 r v).a = s.a := by cases r <;> rfl
@[simp] theorem State.setReg16_f : (s.setReg16 r v).f = s.f := by cases r <;> rfl
@[simp] theorem State.setReg16_pc : (s.setReg16 r v).pc = s.pc := by cases r <;> rfl
@[simp] theorem State.setReg16_mem : (s.setReg16 r v).mem = s.mem := by cases r <;> rfl
@[simp] theorem State.setReg16_rotateVariant : (s.setReg16 r v).rotateVariant = s.rotateVariant := by cases r <;> rfl
@[simp] theorem State.setReg16_signal : (s.setReg16 r v).signal = s.signal := by cases r <;> rfl
@[simp] theorem State.setReg16_byteAt (x : Addr) : (s.setReg16 r v).byteAt x = s.byteAt x := by cases r <;> rfl

/-- A 16-bit operand reads back what was written to it (R101). -/
@[simp] theorem State.reg16_setReg16_self : (s.setReg16 r v).reg16 r = v := by
  cases r
  · exact State.pair_setPair_self s .bc v
  · exact State.pair_setPair_self s .de v
  · exact State.pair_setPair_self s .hl v
  · rfl

theorem State.setReg16_sp (h : r ≠ .sp) : (s.setReg16 r v).sp = s.sp := by
  cases r <;> first | rfl | exact absurd rfl h

end reg16

section recordUpdates
variable (s : State)

@[simp] theorem State.reg8_with_f (f : Flags) (r : Reg8) : ({ s with f := f } : State).reg8 r = s.reg8 r := by
  cases r <;> rfl
@[simp] theorem State.reg8_with_pc (x : Addr) (r : Reg8) : ({ s with pc := x } : State).reg8 r = s.reg8 r := by
  cases r <;> rfl
@[simp] theorem State.reg8_with_sp (x : Addr) (r : Reg8) : ({ s with sp := x } : State).reg8 r = s.reg8 r := by
  cases r <;> rfl
@[simp] theorem State.reg8_with_mem (m : Memory) (r : Reg8) : ({ s with mem := m } : State).reg8 r = s.reg8 r := by
  cases r <;> rfl
@[simp] theorem State.reg8_with_signal (x : Option OpcodeSignal) (r : Reg8) :
    ({ s with signal := x } : State).reg8 r = s.reg8 r := by
  cases r <;> rfl

@[simp] theorem State.pair_with_f (f : Flags) (p : Pair) : ({ s with f := f } : State).pair p = s.pair p := by
  cases p <;> rfl
@[simp] theorem State.pair_with_pc (x : Addr) (p : Pair) : ({ s with pc := x } : State).pair p = s.pair p := by
  cases p <;> rfl
@[simp] theorem State.pair_with_sp (x : Addr) (p : Pair) : ({ s with sp := x } : State).pair p = s.pair p := by
  cases p <;> rfl
@[simp] theorem State.pair_with_mem (m : Memory) (p : Pair) : ({ s with mem := m } : State).pair p = s.pair p := by
  cases p <;> rfl
@[simp] theorem State.pair_with_signal (x : Option OpcodeSignal) (p : Pair) :
    ({ s with signal := x } : State).pair p = s.pair p := by
  cases p <;> rfl

@[simp] theorem State.byteAt_with_f (f : Flags) (x : Addr) : ({ s with f := f } : State).byteAt x = s.byteAt x := rfl
@[simp] theorem State.byteAt_with_pc (y x : Addr) : ({ s with pc := y } : State).byteAt x = s.byteAt x := rfl
@[simp] theorem State.byteAt_with_sp (y x : Addr) : ({ s with sp := y } : State).byteAt x = s.byteAt x := rfl
@[simp] theorem State.byteAt_with_signal (y : Option OpcodeSignal) (x : Addr) :
    ({ s with signal := y } : State).byteAt x = s.byteAt x := rfl

@[simp] theorem State.clearSignal_a : s.clearSignal.a = s.a := rfl
@[simp] theorem State.clearSignal_f : s.clearSignal.f = s.f := rfl
@[simp] theorem State.clearSignal_pc : s.clearSignal.pc = s.pc := rfl
@[simp] theorem State.clearSignal_sp : s.clearSignal.sp = s.sp := rfl
@[simp] theorem State.clearSignal_mem : s.clearSignal.mem = s.mem := rfl
@[simp] theorem State.clearSignal_rotateVariant : s.clearSignal.rotateVariant = s.rotateVariant := rfl
@[simp] theorem State.clearSignal_signal : s.clearSignal.signal = none := rfl
@[simp] theorem State.clearSignal_byteAt (x : Addr) : s.clearSignal.byteAt x = s.byteAt x := rfl
@[simp] theorem State.clearSignal_reg8 (r : Reg8) : s.clearSignal.reg8 r = s.reg8 r := by cases r <;> rfl
@[simp] theorem State.clearSignal_pair (p : Pair) : s.clearSignal.pair p = s.pair p := by cases p <;> rfl

end recordUpdates

end Sys2Proof.Machine
end

