-- ==== Sys2Proof/Laws/Ops.lean ====
section
/-! SUPPORT. One lemma for each shared operation: all it can do. The address decoder claims every address, so no access
faults, and an access is a read or a write of the flat storage (20_memory.md R32 to R34). -/

namespace Sys2Proof.Machine

/-- One case of the comparison chain: the region it names contains the address, or the rest of the chain names one. -/
theorem chain_case {p : Prop} [Decidable p] {r : Region} {rest : Option Region} {n : Nat}
    (here : p → r.first ≤ n ∧ n < r.first + r.size)
    (there : ¬ p → ∃ q, rest = some q ∧ q.first ≤ n ∧ n < q.first + q.size) :
    ∃ q, (if p then some r else rest) = some q ∧ q.first ≤ n ∧ n < q.first + q.size := by
  by_cases h : p
  · exact ⟨r, if_pos h, here h⟩
  · rw [if_neg h]
    exact there h

/-- Some region claims every address, and it contains the address. -/
theorem region_claims (addr : Addr) :
    ∃ r, region addr = some r ∧ r.first ≤ addr.toNat ∧ addr.toNat < r.first + r.size := by
  have h := addr.isLt
  unfold region
  simp only
  generalize addr.toNat = n at h ⊢
  iterate 12 refine chain_case (fun _ => by simp only [Region.first, Region.size]; omega) fun _ => ?_
  omega

/-- The cell of an address is the address: the flat storage is the twelve arrays side by side. -/
theorem cell_offset {addr : Addr} {r : Region} (h : r.first ≤ addr.toNat) : r.cell (offset r addr) = addr.toNat := by
  unfold Region.cell offset
  omega

theorem memRead_eq (addr : Addr) (s : State) (k : Byte → Out) : memRead addr s k = k (s.byteAt addr) := by
  obtain ⟨r, hr, hle, _⟩ := region_claims addr
  simp only [memRead, hr, cell_offset hle, State.byteAt]

theorem memWrite_eq (addr : Addr) (v : Byte) (s : State) (k : State → Out) :
    memWrite addr v s k = k { s with mem := s.mem.write addr.toNat v } := by
  obtain ⟨r, hr, hle, _⟩ := region_claims addr
  simp only [memWrite, hr, cell_offset hle]

/-- What one byte write leaves at every address (R34, R40). -/
theorem State.byteAt_write (s : State) (addr x : Addr) (v : Byte) :
    ({ s with mem := s.mem.write addr.toNat v } : State).byteAt x = if x = addr then v else s.byteAt x := by
  unfold State.byteAt
  rw [Memory.read_write]
  by_cases h : x = addr
  · simp [h]
  · have : addr.toNat ≠ x.toNat := fun e => h (BitVec.eq_of_toNat_eq e.symm)
    simp [h, this]

theorem fetch8_eq (s : State) (k : Byte → State → Out) :
    fetch8 s k = k (s.byteAt s.pc) { s with pc := s.pc + 1 } := memRead_eq _ _ _

theorem fetch16_eq (s : State) (k : Addr → State → Out) :
    fetch16 s k = k (word16 (s.byteAt s.pc) (s.byteAt (s.pc + 1))) { s with pc := s.pc + 1 + 1 } := by
  simp only [fetch16, fetch8_eq, State.byteAt_with_pc]

theorem push16_eq (v : Addr) (s : State) (k : State → Out) :
    push16 v s k =
      k { s with
          sp := s.sp - 1 - 1
          mem := (s.mem.write (s.sp - 1).toNat (highByte v)).write (s.sp - 1 - 1).toNat (lowByte v) } := by
  simp only [push16, memWrite_eq]

theorem pop16_eq (s : State) (k : Addr → State → Out) :
    pop16 s k = k (s.byteAt (s.sp + 1) ++ s.byteAt s.sp) { s with sp := s.sp + 1 + 1 } := by
  simp only [pop16, memRead_eq, State.byteAt_with_sp]

/-- The fetch of an instruction, with no fault: every case of `fetchInstr`. -/
theorem fetchInstr_eq (s : State) (run : Instr → State → Out) :
    fetchInstr s run =
      match primaryEntry (s.byteAt s.pc) with
      | .op i => run i { s with pc := s.pc + 1 }
      | .opN8 mk => run (mk (s.byteAt (s.pc + 1))) { s with pc := s.pc + 1 + 1 }
      | .opN16 mk => run (mk (word16 (s.byteAt (s.pc + 1)) (s.byteAt (s.pc + 1 + 1)))) { s with pc := s.pc + 1 + 1 + 1 }
      | .pre => run .prefixCB { s with pc := s.pc + 1 } := by
  rw [fetchInstr, fetch8_eq]
  cases primaryEntry (s.byteAt s.pc) with
  | op i => rfl
  | opN8 mk => exact fetch8_eq { s with pc := s.pc + 1 } fun n => run (mk n)
  | opN16 mk => exact fetch16_eq { s with pc := s.pc + 1 } fun v => run (mk v)
  | pre => rfl

theorem placeBytes_pc (s : State) (addr : Addr) (vs : List Byte) : (placeBytes s addr vs).pc = s.pc := by
  induction vs generalizing s addr with
  | nil => rfl
  | cons v vs ih => exact ih _ _

/-! ### A 16-bit value and its two bytes -/

/-- A pair's value, high register first (R11). -/
theorem toNat_highLow (h l : Byte) : (h ++ l : Addr).toNat = h.toNat * 256 + l.toNat := by
  rw [BitVec.toNat_append, Nat.shiftLeft_eq, Nat.mul_comm, ← Nat.two_pow_add_eq_or_of_lt l.isLt, Nat.mul_comm]

theorem toNat_highByte (v : Addr) : (highByte v).toNat = v.toNat / 256 := by
  have := v.isLt
  simp only [highByte, BitVec.extractLsb'_toNat, Nat.shiftRight_eq_div_pow]
  omega

theorem toNat_lowByte (v : Addr) : (lowByte v).toNat = v.toNat % 256 := by
  simp [lowByte, BitVec.extractLsb'_toNat]

end Sys2Proof.Machine
end

