-- ==== Sys2Proof/Laws/Meanings.lean ====
section
/-! SUPPORT. The case split over the instruction set by operand family (24 cases for 131 constructors), the shared meaning each
family runs, and the one state each shared meaning ends in. -/

namespace Sys2Proof

/-- What holds of every family of the instruction set holds of every instruction. -/
theorem Instr.byFamily {P : Instr → Prop}
    (ldRN8 : ∀ r n, P (.ldRN8 r n)) (ldRRN16 : ∀ r v, P (.ldRRN16 r v)) (ldAIndBC : P .ldAIndBC) (ldAIndDE : P .ldAIndDE)
    (ldRIndHL : ∀ r, P (.ldRIndHL r)) (ldIndBCA : P .ldIndBCA) (ldIndDEA : P .ldIndDEA)
    (ldIndHLR : ∀ r, P (.ldIndHLR r)) (ldIndHLIncA : P .ldIndHLIncA) (ldIndHLDecA : P .ldIndHLDecA)
    (ldhIndA8A : ∀ n, P (.ldhIndA8A n)) (ldhIndCA : P .ldhIndCA) (incR : ∀ r, P (.incR r)) (decR : ∀ r, P (.decR r))
    (incRR : ∀ r, P (.incRR r)) (rla : P .rla) (rlcR : ∀ r, P (.rlcR r)) (addAIndHL : P .addAIndHL) (xorAA : P .xorAA)
    (cpAn8 : ∀ n, P (.cpAn8 n)) (cpAIndHL : P .cpAIndHL) (jrNZe8 : ∀ e, P (.jrNZe8 e)) (callA16 : ∀ t, P (.callA16 t))
    (ret : P .ret) (pushRR : ∀ p, P (.pushRR p)) (popRR : ∀ p, P (.popRR p)) (prefixCB : P .prefixCB)
    (bitBR : ∀ b r, P (.bitBR b r)) (unimplementedPrimary : ∀ op, P (.unimplementedPrimary op))
    (unimplementedExtended : ∀ x, P (.unimplementedExtended x)) : ∀ i, P i
  | .ldBCn16 v => ldRRN16 .bc v
  | .ldIndBCA => ldIndBCA
  | .incBC => incRR .bc
  | .incB => incR .b
  | .decB => decR .b
  | .ldBn8 n => ldRN8 .b n
  | .ldAIndBC => ldAIndBC
  | .incC => incR .c
  | .decC => decR .c
  | .ldCn8 n => ldRN8 .c n
  | .ldDEn16 v => ldRRN16 .de v
  | .ldIndDEA => ldIndDEA
  | .incDE => incRR .de
  | .incD => incR .d
  | .decD => decR .d
  | .ldDn8 n => ldRN8 .d n
  | .rla => rla
  | .ldAIndDE => ldAIndDE
  | .incE => incR .e
  | .decE => decR .e
  | .ldEn8 n => ldRN8 .e n
  | .jrNZe8 e => jrNZe8 e
  | .ldHLn16 v => ldRRN16 .hl v
  | .ldIndHLIncA => ldIndHLIncA
  | .incHL => incRR .hl
  | .incH => incR .h
  | .decH => decR .h
  | .ldHn8 n => ldRN8 .h n
  | .incL => incR .l
  | .decL => decR .l
  | .ldLn8 n => ldRN8 .l n
  | .ldSPn16 v => ldRRN16 .sp v
  | .ldIndHLDecA => ldIndHLDecA
  | .incSP => incRR .sp
  | .incA => incR .a
  | .decA => decR .a
  | .ldAn8 n => ldRN8 .a n
  | .ldBIndHL => ldRIndHL .b
  | .ldCIndHL => ldRIndHL .c
  | .ldDIndHL => ldRIndHL .d
  | .ldEIndHL => ldRIndHL .e
  | .ldHIndHL => ldRIndHL .h
  | .ldLIndHL => ldRIndHL .l
  | .ldIndHLB => ldIndHLR .b
  | .ldIndHLC => ldIndHLR .c
  | .ldIndHLD => ldIndHLR .d
  | .ldIndHLE => ldIndHLR .e
  | .ldIndHLH => ldIndHLR .h
  | .ldIndHLL => ldIndHLR .l
  | .ldIndHLA => ldIndHLR .a
  | .ldAIndHL => ldRIndHL .a
  | .addAIndHL => addAIndHL
  | .xorAA => xorAA
  | .cpAIndHL => cpAIndHL
  | .popBC => popRR .bc
  | .pushBC => pushRR .bc
  | .ret => ret
  | .prefixCB => prefixCB
  | .callA16 t => callA16 t
  | .popDE => popRR .de
  | .pushDE => pushRR .de
  | .ldhIndA8A n => ldhIndA8A n
  | .popHL => popRR .hl
  | .ldhIndCA => ldhIndCA
  | .pushHL => pushRR .hl
  | .cpAn8 n => cpAn8 n
  | .rlcB => rlcR .b
  | .rlcC => rlcR .c
  | .rlcD => rlcR .d
  | .rlcE => rlcR .e
  | .rlcH => rlcR .h
  | .rlcL => rlcR .l
  | .rlcA => rlcR .a
  | .bit0B => bitBR 0 .b
  | .bit0C => bitBR 0 .c
  | .bit0D => bitBR 0 .d
  | .bit0E => bitBR 0 .e
  | .bit0H => bitBR 0 .h
  | .bit0L => bitBR 0 .l
  | .bit0A => bitBR 0 .a
  | .bit1B => bitBR 1 .b
  | .bit1C => bitBR 1 .c
  | .bit1D => bitBR 1 .d
  | .bit1E => bitBR 1 .e
  | .bit1H => bitBR 1 .h
  | .bit1L => bitBR 1 .l
  | .bit1A => bitBR 1 .a
  | .bit2B => bitBR 2 .b
  | .bit2C => bitBR 2 .c
  | .bit2D => bitBR 2 .d
  | .bit2E => bitBR 2 .e
  | .bit2H => bitBR 2 .h
  | .bit2L => bitBR 2 .l
  | .bit2A => bitBR 2 .a
  | .bit3B => bitBR 3 .b
  | .bit3C => bitBR 3 .c
  | .bit3D => bitBR 3 .d
  | .bit3E => bitBR 3 .e
  | .bit3H => bitBR 3 .h
  | .bit3L => bitBR 3 .l
  | .bit3A => bitBR 3 .a
  | .bit4B => bitBR 4 .b
  | .bit4C => bitBR 4 .c
  | .bit4D => bitBR 4 .d
  | .bit4E => bitBR 4 .e
  | .bit4H => bitBR 4 .h
  | .bit4L => bitBR 4 .l
  | .bit4A => bitBR 4 .a
  | .bit5B => bitBR 5 .b
  | .bit5C => bitBR 5 .c
  | .bit5D => bitBR 5 .d
  | .bit5E => bitBR 5 .e
  | .bit5H => bitBR 5 .h
  | .bit5L => bitBR 5 .l
  | .bit5A => bitBR 5 .a
  | .bit6B => bitBR 6 .b
  | .bit6C => bitBR 6 .c
  | .bit6D => bitBR 6 .d
  | .bit6E => bitBR 6 .e
  | .bit6H => bitBR 6 .h
  | .bit6L => bitBR 6 .l
  | .bit6A => bitBR 6 .a
  | .bit7B => bitBR 7 .b
  | .bit7C => bitBR 7 .c
  | .bit7D => bitBR 7 .d
  | .bit7E => bitBR 7 .e
  | .bit7H => bitBR 7 .h
  | .bit7L => bitBR 7 .l
  | .bit7A => bitBR 7 .a
  | .unimplementedPrimary op => unimplementedPrimary op
  | .unimplementedExtended x => unimplementedExtended x

end Sys2Proof

namespace Sys2Proof.Machine

/-! ### The shared meaning a family runs -/

@[simp] theorem exec_ldRN8 (r : Reg8) (n : Byte) (s : State) : exec (.ldRN8 r n) s = loadImm8 r n s := by
  cases r <;> rfl
@[simp] theorem exec_ldRRN16 (r : Reg16) (v : Addr) (s : State) : exec (.ldRRN16 r v) s = loadImm16 r v s := by
  cases r <;> rfl
@[simp] theorem exec_ldRIndHL (r : Reg8) (s : State) : exec (.ldRIndHL r) s = loadIndirect r .hl s := by
  cases r <;> rfl
@[simp] theorem exec_ldIndHLR (r : Reg8) (s : State) : exec (.ldIndHLR r) s = storeIndirect .hl r s := by
  cases r <;> rfl
@[simp] theorem exec_incR (r : Reg8) (s : State) : exec (.incR r) s = incReg8 r s := by cases r <;> rfl
@[simp] theorem exec_decR (r : Reg8) (s : State) : exec (.decR r) s = decReg8 r s := by cases r <;> rfl
@[simp] theorem exec_incRR (r : Reg16) (s : State) : exec (.incRR r) s = incReg16 r s := by cases r <;> rfl
@[simp] theorem exec_rlcR (r : Reg8) (s : State) : exec (.rlcR r) s = rotateReg8 r s := by cases r <;> rfl
@[simp] theorem exec_pushRR (p : Pair) (s : State) : exec (.pushRR p) s = pushPair p s := by cases p <;> rfl
@[simp] theorem exec_popRR (p : Pair) (s : State) : exec (.popRR p) s = popPair p s := by cases p <;> rfl
@[simp] theorem exec_bitBR (b : Fin 8) (r : Reg8) (s : State) : exec (.bitBR b r) s = testBit b.val r s := by
  fin_cases b <;> cases r <;> rfl

/-! ### The state a shared meaning ends in -/

/-- A load through a pair reads one byte and writes one register (R102 to R104). -/
theorem loadIndirect_eq (r : Reg8) (p : Pair) (s : State) :
    loadIndirect r p s = .next (s.setReg8 r (s.byteAt (s.indirect p))) := memRead_eq _ _ _

/-- A store through a pair writes one byte (R105 to R107). -/
theorem storeIndirect_eq (p : Pair) (r : Reg8) (s : State) :
    storeIndirect p r s = .next { s with mem := s.mem.write (s.indirect p).toNat (s.reg8 r) } := memWrite_eq _ _ _ _

/-- A store through HL with update (R108, R109). -/
theorem storeAndUpdateHL_eq (update : Addr → Addr) (s : State) :
    storeAndUpdateHL update s =
      .next (State.setPair { s with mem := s.mem.write (s.indirect .hl).toNat s.a } .hl (update (s.indirect .hl))) :=
  memWrite_eq _ _ _ _

/-- A high-page store writes one byte (R110, R111). -/
theorem storeHighPage_eq (n : Byte) (s : State) :
    storeHighPage n s = .next { s with mem := s.mem.write (highPage n).toNat s.a } := memWrite_eq _ _ _ _

/-- `ADD A,[HL]` (R140). -/
theorem execAddAIndHL_eq (s : State) :
    execAddAIndHL s =
      .next { s with
        a := (add8 s.a (s.byteAt (s.indirect .hl))).res
        f := Flags.ofAdd (add8 s.a (s.byteAt (s.indirect .hl))) } := memRead_eq _ _ _

/-- `CP A,[HL]` (R143). -/
theorem execCpAIndHL_eq (s : State) :
    execCpAIndHL s = .next { s with f := Flags.ofCmp (cmp8 s.a (s.byteAt (s.indirect .hl))) } := memRead_eq _ _ _

/-- Storage after a 16-bit push, SP being the register's value before it (R151, R160). -/
def pushedMem (s : State) (v : Addr) : Memory :=
  (s.mem.write (s.sp - 1).toNat (highByte v)).write (s.sp - 1 - 1).toNat (lowByte v)

/-- `PUSH rr` (R160). -/
theorem pushPair_eq (p : Pair) (s : State) :
    pushPair p s = .next { s with sp := s.sp - 1 - 1, mem := pushedMem s (s.pair p) } := push16_eq _ _ _

/-- `POP rr` (R161). -/
theorem popPair_eq (p : Pair) (s : State) :
    popPair p s = .next (State.setPair { s with sp := s.sp + 1 + 1 } p (s.byteAt (s.sp + 1) ++ s.byteAt s.sp)) :=
  pop16_eq _ _

/-- `CALL a16` (R151). -/
theorem execCallA16_eq (t : Addr) (s : State) :
    execCallA16 t s = .next { s with pc := t, sp := s.sp - 1 - 1, mem := pushedMem s s.pc } := push16_eq _ _ _

/-- `RET` (R152). -/
theorem execRet_eq (s : State) :
    execRet s = .next { s with pc := s.byteAt (s.sp + 1) ++ s.byteAt s.sp, sp := s.sp + 1 + 1 } := pop16_eq _ _

/-- The prefix runs the extended dispatch past one more byte (R170). -/
theorem execPrefixCB_eq (s : State) :
    execPrefixCB s = executeExtended (s.byteAt s.pc) { s with pc := s.pc + 1 } := fetch8_eq _ _

/-! ### The instructions outside the families, by the state they end in -/

theorem exec_ldAIndBC (s : State) : exec .ldAIndBC s = .next { s with a := s.byteAt (s.indirect .bc) } :=
  loadIndirect_eq .a .bc s
theorem exec_ldAIndDE (s : State) : exec .ldAIndDE s = .next { s with a := s.byteAt (s.indirect .de) } :=
  loadIndirect_eq .a .de s
theorem exec_ldIndBCA (s : State) :
    exec .ldIndBCA s = .next { s with mem := s.mem.write (s.indirect .bc).toNat s.a } := storeIndirect_eq .bc .a s
theorem exec_ldIndDEA (s : State) :
    exec .ldIndDEA s = .next { s with mem := s.mem.write (s.indirect .de).toNat s.a } := storeIndirect_eq .de .a s
theorem exec_ldIndHLIncA (s : State) :
    exec .ldIndHLIncA s =
      .next (State.setPair { s with mem := s.mem.write (s.indirect .hl).toNat s.a } .hl (s.indirect .hl + 1)) :=
  storeAndUpdateHL_eq (fun hl => hl + 1) s
theorem exec_ldIndHLDecA (s : State) :
    exec .ldIndHLDecA s =
      .next (State.setPair { s with mem := s.mem.write (s.indirect .hl).toNat s.a } .hl (s.indirect .hl - 1)) :=
  storeAndUpdateHL_eq (fun hl => hl - 1) s
theorem exec_ldhIndA8A (n : Byte) (s : State) :
    exec (.ldhIndA8A n) s = .next { s with mem := s.mem.write (highPage n).toNat s.a } := storeHighPage_eq n s
theorem exec_ldhIndCA (s : State) :
    exec .ldhIndCA s = .next { s with mem := s.mem.write (highPage s.c).toNat s.a } := storeHighPage_eq s.c s
theorem exec_rla (s : State) : exec .rla s = rotateReg8 .a s := rfl
theorem exec_addAIndHL (s : State) :
    exec .addAIndHL s =
      .next { s with
        a := (add8 s.a (s.byteAt (s.indirect .hl))).res
        f := Flags.ofAdd (add8 s.a (s.byteAt (s.indirect .hl))) } := execAddAIndHL_eq s
theorem exec_xorAA (s : State) : exec .xorAA s = .next { s with a := s.a ^^^ s.a, f := Flags.ofXorAA } := rfl
theorem exec_cpAn8 (n : Byte) (s : State) :
    exec (.cpAn8 n) s = .next { s with f := Flags.ofCmp (cmp8 s.a n) } := rfl
theorem exec_cpAIndHL (s : State) :
    exec .cpAIndHL s = .next { s with f := Flags.ofCmp (cmp8 s.a (s.byteAt (s.indirect .hl))) } := execCpAIndHL_eq s
theorem exec_jrNZe8 (e : Byte) (s : State) :
    exec (.jrNZe8 e) s = .next { s with pc := if s.f.z then s.pc else relativeTarget s.pc e } := by
  show Host.Outcome.next _ = _
  cases s.f.z <;> rfl
theorem exec_callA16 (t : Addr) (s : State) :
    exec (.callA16 t) s = .next { s with pc := t, sp := s.sp - 1 - 1, mem := pushedMem s s.pc } := execCallA16_eq t s
theorem exec_ret (s : State) :
    exec .ret s = .next { s with pc := s.byteAt (s.sp + 1) ++ s.byteAt s.sp, sp := s.sp + 1 + 1 } := execRet_eq s
theorem exec_prefixCB (s : State) :
    exec .prefixCB s = executeExtended (s.byteAt s.pc) { s with pc := s.pc + 1 } := execPrefixCB_eq s

theorem sub_one_sub_one (x : Addr) : x - 1 - 1 = x - 2 := by
  rw [BitVec.sub_sub]
  rfl

theorem add_one_add_one (x : Addr) : x + 1 + 1 = x + 2 := by
  rw [BitVec.add_assoc]
  rfl

/-- What a push leaves at every address: the low byte at the new SP, the high byte above it (R41 a, R160). -/
theorem read_pushedMem (s : State) (v : Addr) (x : Addr) :
    (pushedMem s v).read x.toNat =
      if x = s.sp - 2 then lowByte v else if x = s.sp - 1 then highByte v else s.byteAt x := by
  have low := State.byteAt_write { s with mem := s.mem.write (s.sp - 1).toNat (highByte v) } (s.sp - 1 - 1) x (lowByte v)
  have high := State.byteAt_write s (s.sp - 1) x (highByte v)
  rw [← sub_one_sub_one]
  refine low.trans ?_
  congr 1

/-- A push keeps the canonical form of storage. -/
theorem wf_pushedMem {s : State} {v : Addr} (h : s.mem.wf) : (pushedMem s v).wf :=
  Memory.wf_write (Memory.wf_write h (BitVec.isLt _)) (BitVec.isLt _)

end Sys2Proof.Machine
end

