-- ==== Sys2Proof/Laws/PerInstr.lean ====
section
/-! SUPPORT. One lemma for each constructor of `Instr`: the encoding has the length the format gives (30_encoding.md R63,
R66, R70), and no instruction is shorter than 1 or longer than 3 bytes. -/

namespace Sys2Proof.Laws.EncodingLength

/-- The bytes of an instruction are as many as its format says, 1 to 3. -/
def Statement (i : Instr) : Prop := (encode i).length = i.length ∧ 1 ≤ i.length ∧ i.length ≤ 3

theorem of_length {i : Instr} (n : Nat) (he : (encode i).length = n) (hl : i.length = n) (hn : 1 ≤ n ∧ n ≤ 3) :
    Statement i := by
  subst hl
  exact ⟨he, hn⟩

theorem ldBCn16 (v : Addr) : Statement (.ldBCn16 v) := of_length 3 rfl rfl (by decide)
theorem ldIndBCA : Statement .ldIndBCA := of_length 1 rfl rfl (by decide)
theorem incBC : Statement .incBC := of_length 1 rfl rfl (by decide)
theorem incB : Statement .incB := of_length 1 rfl rfl (by decide)
theorem decB : Statement .decB := of_length 1 rfl rfl (by decide)
theorem ldBn8 (n : Byte) : Statement (.ldBn8 n) := of_length 2 rfl rfl (by decide)
theorem ldAIndBC : Statement .ldAIndBC := of_length 1 rfl rfl (by decide)
theorem incC : Statement .incC := of_length 1 rfl rfl (by decide)
theorem decC : Statement .decC := of_length 1 rfl rfl (by decide)
theorem ldCn8 (n : Byte) : Statement (.ldCn8 n) := of_length 2 rfl rfl (by decide)
theorem ldDEn16 (v : Addr) : Statement (.ldDEn16 v) := of_length 3 rfl rfl (by decide)
theorem ldIndDEA : Statement .ldIndDEA := of_length 1 rfl rfl (by decide)
theorem incDE : Statement .incDE := of_length 1 rfl rfl (by decide)
theorem incD : Statement .incD := of_length 1 rfl rfl (by decide)
theorem decD : Statement .decD := of_length 1 rfl rfl (by decide)
theorem ldDn8 (n : Byte) : Statement (.ldDn8 n) := of_length 2 rfl rfl (by decide)
theorem rla : Statement .rla := of_length 1 rfl rfl (by decide)
theorem ldAIndDE : Statement .ldAIndDE := of_length 1 rfl rfl (by decide)
theorem incE : Statement .incE := of_length 1 rfl rfl (by decide)
theorem decE : Statement .decE := of_length 1 rfl rfl (by decide)
theorem ldEn8 (n : Byte) : Statement (.ldEn8 n) := of_length 2 rfl rfl (by decide)
theorem jrNZe8 (e : Byte) : Statement (.jrNZe8 e) := of_length 2 rfl rfl (by decide)
theorem ldHLn16 (v : Addr) : Statement (.ldHLn16 v) := of_length 3 rfl rfl (by decide)
theorem ldIndHLIncA : Statement .ldIndHLIncA := of_length 1 rfl rfl (by decide)
theorem incHL : Statement .incHL := of_length 1 rfl rfl (by decide)
theorem incH : Statement .incH := of_length 1 rfl rfl (by decide)
theorem decH : Statement .decH := of_length 1 rfl rfl (by decide)
theorem ldHn8 (n : Byte) : Statement (.ldHn8 n) := of_length 2 rfl rfl (by decide)
theorem incL : Statement .incL := of_length 1 rfl rfl (by decide)
theorem decL : Statement .decL := of_length 1 rfl rfl (by decide)
theorem ldLn8 (n : Byte) : Statement (.ldLn8 n) := of_length 2 rfl rfl (by decide)
theorem ldSPn16 (v : Addr) : Statement (.ldSPn16 v) := of_length 3 rfl rfl (by decide)
theorem ldIndHLDecA : Statement .ldIndHLDecA := of_length 1 rfl rfl (by decide)
theorem incSP : Statement .incSP := of_length 1 rfl rfl (by decide)
theorem incA : Statement .incA := of_length 1 rfl rfl (by decide)
theorem decA : Statement .decA := of_length 1 rfl rfl (by decide)
theorem ldAn8 (n : Byte) : Statement (.ldAn8 n) := of_length 2 rfl rfl (by decide)
theorem ldBIndHL : Statement .ldBIndHL := of_length 1 rfl rfl (by decide)
theorem ldCIndHL : Statement .ldCIndHL := of_length 1 rfl rfl (by decide)
theorem ldDIndHL : Statement .ldDIndHL := of_length 1 rfl rfl (by decide)
theorem ldEIndHL : Statement .ldEIndHL := of_length 1 rfl rfl (by decide)
theorem ldHIndHL : Statement .ldHIndHL := of_length 1 rfl rfl (by decide)
theorem ldLIndHL : Statement .ldLIndHL := of_length 1 rfl rfl (by decide)
theorem ldIndHLB : Statement .ldIndHLB := of_length 1 rfl rfl (by decide)
theorem ldIndHLC : Statement .ldIndHLC := of_length 1 rfl rfl (by decide)
theorem ldIndHLD : Statement .ldIndHLD := of_length 1 rfl rfl (by decide)
theorem ldIndHLE : Statement .ldIndHLE := of_length 1 rfl rfl (by decide)
theorem ldIndHLH : Statement .ldIndHLH := of_length 1 rfl rfl (by decide)
theorem ldIndHLL : Statement .ldIndHLL := of_length 1 rfl rfl (by decide)
theorem ldIndHLA : Statement .ldIndHLA := of_length 1 rfl rfl (by decide)
theorem ldAIndHL : Statement .ldAIndHL := of_length 1 rfl rfl (by decide)
theorem addAIndHL : Statement .addAIndHL := of_length 1 rfl rfl (by decide)
theorem xorAA : Statement .xorAA := of_length 1 rfl rfl (by decide)
theorem cpAIndHL : Statement .cpAIndHL := of_length 1 rfl rfl (by decide)
theorem popBC : Statement .popBC := of_length 1 rfl rfl (by decide)
theorem pushBC : Statement .pushBC := of_length 1 rfl rfl (by decide)
theorem ret : Statement .ret := of_length 1 rfl rfl (by decide)
theorem prefixCB : Statement .prefixCB := of_length 1 rfl rfl (by decide)
theorem callA16 (t : Addr) : Statement (.callA16 t) := of_length 3 rfl rfl (by decide)
theorem popDE : Statement .popDE := of_length 1 rfl rfl (by decide)
theorem pushDE : Statement .pushDE := of_length 1 rfl rfl (by decide)
theorem ldhIndA8A (n : Byte) : Statement (.ldhIndA8A n) := of_length 2 rfl rfl (by decide)
theorem popHL : Statement .popHL := of_length 1 rfl rfl (by decide)
theorem ldhIndCA : Statement .ldhIndCA := of_length 1 rfl rfl (by decide)
theorem pushHL : Statement .pushHL := of_length 1 rfl rfl (by decide)
theorem cpAn8 (n : Byte) : Statement (.cpAn8 n) := of_length 2 rfl rfl (by decide)
theorem rlcB : Statement .rlcB := of_length 2 rfl rfl (by decide)
theorem rlcC : Statement .rlcC := of_length 2 rfl rfl (by decide)
theorem rlcD : Statement .rlcD := of_length 2 rfl rfl (by decide)
theorem rlcE : Statement .rlcE := of_length 2 rfl rfl (by decide)
theorem rlcH : Statement .rlcH := of_length 2 rfl rfl (by decide)
theorem rlcL : Statement .rlcL := of_length 2 rfl rfl (by decide)
theorem rlcA : Statement .rlcA := of_length 2 rfl rfl (by decide)
theorem bit0B : Statement .bit0B := of_length 2 rfl rfl (by decide)
theorem bit0C : Statement .bit0C := of_length 2 rfl rfl (by decide)
theorem bit0D : Statement .bit0D := of_length 2 rfl rfl (by decide)
theorem bit0E : Statement .bit0E := of_length 2 rfl rfl (by decide)
theorem bit0H : Statement .bit0H := of_length 2 rfl rfl (by decide)
theorem bit0L : Statement .bit0L := of_length 2 rfl rfl (by decide)
theorem bit0A : Statement .bit0A := of_length 2 rfl rfl (by decide)
theorem bit1B : Statement .bit1B := of_length 2 rfl rfl (by decide)
theorem bit1C : Statement .bit1C := of_length 2 rfl rfl (by decide)
theorem bit1D : Statement .bit1D := of_length 2 rfl rfl (by decide)
theorem bit1E : Statement .bit1E := of_length 2 rfl rfl (by decide)
theorem bit1H : Statement .bit1H := of_length 2 rfl rfl (by decide)
theorem bit1L : Statement .bit1L := of_length 2 rfl rfl (by decide)
theorem bit1A : Statement .bit1A := of_length 2 rfl rfl (by decide)
theorem bit2B : Statement .bit2B := of_length 2 rfl rfl (by decide)
theorem bit2C : Statement .bit2C := of_length 2 rfl rfl (by decide)
theorem bit2D : Statement .bit2D := of_length 2 rfl rfl (by decide)
theorem bit2E : Statement .bit2E := of_length 2 rfl rfl (by decide)
theorem bit2H : Statement .bit2H := of_length 2 rfl rfl (by decide)
theorem bit2L : Statement .bit2L := of_length 2 rfl rfl (by decide)
theorem bit2A : Statement .bit2A := of_length 2 rfl rfl (by decide)
theorem bit3B : Statement .bit3B := of_length 2 rfl rfl (by decide)
theorem bit3C : Statement .bit3C := of_length 2 rfl rfl (by decide)
theorem bit3D : Statement .bit3D := of_length 2 rfl rfl (by decide)
theorem bit3E : Statement .bit3E := of_length 2 rfl rfl (by decide)
theorem bit3H : Statement .bit3H := of_length 2 rfl rfl (by decide)
theorem bit3L : Statement .bit3L := of_length 2 rfl rfl (by decide)
theorem bit3A : Statement .bit3A := of_length 2 rfl rfl (by decide)
theorem bit4B : Statement .bit4B := of_length 2 rfl rfl (by decide)
theorem bit4C : Statement .bit4C := of_length 2 rfl rfl (by decide)
theorem bit4D : Statement .bit4D := of_length 2 rfl rfl (by decide)
theorem bit4E : Statement .bit4E := of_length 2 rfl rfl (by decide)
theorem bit4H : Statement .bit4H := of_length 2 rfl rfl (by decide)
theorem bit4L : Statement .bit4L := of_length 2 rfl rfl (by decide)
theorem bit4A : Statement .bit4A := of_length 2 rfl rfl (by decide)
theorem bit5B : Statement .bit5B := of_length 2 rfl rfl (by decide)
theorem bit5C : Statement .bit5C := of_length 2 rfl rfl (by decide)
theorem bit5D : Statement .bit5D := of_length 2 rfl rfl (by decide)
theorem bit5E : Statement .bit5E := of_length 2 rfl rfl (by decide)
theorem bit5H : Statement .bit5H := of_length 2 rfl rfl (by decide)
theorem bit5L : Statement .bit5L := of_length 2 rfl rfl (by decide)
theorem bit5A : Statement .bit5A := of_length 2 rfl rfl (by decide)
theorem bit6B : Statement .bit6B := of_length 2 rfl rfl (by decide)
theorem bit6C : Statement .bit6C := of_length 2 rfl rfl (by decide)
theorem bit6D : Statement .bit6D := of_length 2 rfl rfl (by decide)
theorem bit6E : Statement .bit6E := of_length 2 rfl rfl (by decide)
theorem bit6H : Statement .bit6H := of_length 2 rfl rfl (by decide)
theorem bit6L : Statement .bit6L := of_length 2 rfl rfl (by decide)
theorem bit6A : Statement .bit6A := of_length 2 rfl rfl (by decide)
theorem bit7B : Statement .bit7B := of_length 2 rfl rfl (by decide)
theorem bit7C : Statement .bit7C := of_length 2 rfl rfl (by decide)
theorem bit7D : Statement .bit7D := of_length 2 rfl rfl (by decide)
theorem bit7E : Statement .bit7E := of_length 2 rfl rfl (by decide)
theorem bit7H : Statement .bit7H := of_length 2 rfl rfl (by decide)
theorem bit7L : Statement .bit7L := of_length 2 rfl rfl (by decide)
theorem bit7A : Statement .bit7A := of_length 2 rfl rfl (by decide)
theorem unimplementedPrimary (op : Byte) : Statement (.unimplementedPrimary op) := of_length 1 rfl rfl (by decide)
theorem unimplementedExtended (x : Byte) : Statement (.unimplementedExtended x) := of_length 2 rfl rfl (by decide)

end Sys2Proof.Laws.EncodingLength
end

