-- ==== Sys2Proof/Tests/Slice0.lean ====
section
/-! SUPPORT. Tests and witnesses. Expected values are those of spec/95_test_vectors.md (S, SP, V name its items) or of the
rule named; words are written out bit by bit from 30_encoding.md R65 to R69. Each `witness_` theorem gives a concrete
state and operands that meet all the hypotheses of the obligation it is named after. -/

namespace Sys2Proof.Machine.Tests

/-- The instruction a list of bytes holds. -/
def instrOf (bytes : List Byte) : Option Instr :=
  match decode bytes with
  | .ok (i, []) => some i
  | _ => none

/-- A state with an instruction's bytes at its PC. -/
def withCode (s : State) (bytes : List Byte) : State := placeBytes s s.pc bytes

/-- A state with one byte of storage set. -/
def withByte (s : State) (addr : Addr) (v : Byte) : State := { s with mem := s.mem.write addr.toNat v }

/-- What is seen after one Step over the given bytes at PC. -/
def after {α : Type} (bytes : List Byte) (s : State) (see : State → α) : Option α :=
  match step (withCode s bytes) with
  | .next t => some (see t)
  | _ => none

/-- Flags from the high nibble of F, for writing start states (R16). -/
def flags (z n h c : Bool) : Flags := { z := z, n := n, h := h, c := c }

/-- A and F. -/
def seeAF (t : State) : Byte × Byte := (t.a, t.snapshot.f)

/-- The reset state, under a short name. -/
abbrev s0 : State := State.reset

/-! ### WellFormed refuses what stands for no instruction (R67, R69) -/

theorem test_wf_primary_implemented : (Instr.unimplementedPrimary 0x3C).wellFormed = false := by decide
theorem test_wf_primary_prefix : (Instr.unimplementedPrimary 0xCB).wellFormed = false := by decide
theorem test_wf_primary_fallback : (Instr.unimplementedPrimary 0x00).wellFormed = true := by decide
theorem test_wf_extended_rlc : (Instr.unimplementedExtended 0x00).wellFormed = false := by decide
theorem test_wf_extended_bit : (Instr.unimplementedExtended 0x7F).wellFormed = false := by decide
theorem test_wf_extended_fallback : (Instr.unimplementedExtended 0x06).wellFormed = true := by decide
theorem test_wf_any_operand : (Instr.ldBn8 0xCB).wellFormed = true := by decide

/-! ### Decoding, every constructor by a word written out (V10; R65, R66, R68) -/

theorem test_decode_ld_r_n8 :
    [[0b00_000_110, 0x5A], [0b00_001_110, 0x5A], [0b00_010_110, 0x5A], [0b00_011_110, 0x5A], [0b00_100_110, 0x5A], [0b00_101_110, 0x5A], [0b00_111_110, 0x5A]].map instrOf =
      [some (.ldBn8 0x5A), some (.ldCn8 0x5A), some (.ldDn8 0x5A), some (.ldEn8 0x5A), some (.ldHn8 0x5A), some (.ldLn8 0x5A), some (.ldAn8 0x5A)] := by decide

theorem test_decode_ld_rr_n16 :
    [[0b00_00_0001, 0x34, 0x12], [0b00_01_0001, 0x34, 0x12], [0b00_10_0001, 0x34, 0x12], [0b00_11_0001, 0x34, 0x12]].map instrOf =
      [some (.ldBCn16 0x1234), some (.ldDEn16 0x1234), some (.ldHLn16 0x1234), some (.ldSPn16 0x1234)] := by decide

theorem test_decode_ld_r_ind_hl :
    [[0b01_000_110], [0b01_001_110], [0b01_010_110], [0b01_011_110], [0b01_100_110], [0b01_101_110], [0b01_111_110]].map instrOf =
      [some .ldBIndHL, some .ldCIndHL, some .ldDIndHL, some .ldEIndHL, some .ldHIndHL, some .ldLIndHL, some .ldAIndHL] := by decide

theorem test_decode_ld_ind_hl_r :
    [[0b01110_000], [0b01110_001], [0b01110_010], [0b01110_011], [0b01110_100], [0b01110_101], [0b01110_111]].map instrOf =
      [some .ldIndHLB, some .ldIndHLC, some .ldIndHLD, some .ldIndHLE, some .ldIndHLH, some .ldIndHLL, some .ldIndHLA] := by decide

theorem test_decode_ld_other :
    [[0b00001010], [0b00011010], [0b00000010], [0b00010010], [0b00100010], [0b00110010], [0b11100000, 0x80], [0b11100010]].map instrOf =
      [some .ldAIndBC, some .ldAIndDE, some .ldIndBCA, some .ldIndDEA, some .ldIndHLIncA, some .ldIndHLDecA, some (.ldhIndA8A 0x80), some .ldhIndCA] := by decide

theorem test_decode_inc_r :
    [[0b00_000_100], [0b00_001_100], [0b00_010_100], [0b00_011_100], [0b00_100_100], [0b00_101_100], [0b00_111_100]].map instrOf =
      [some .incB, some .incC, some .incD, some .incE, some .incH, some .incL, some .incA] := by decide

theorem test_decode_dec_r :
    [[0b00_000_101], [0b00_001_101], [0b00_010_101], [0b00_011_101], [0b00_100_101], [0b00_101_101], [0b00_111_101]].map instrOf =
      [some .decB, some .decC, some .decD, some .decE, some .decH, some .decL, some .decA] := by decide

theorem test_decode_inc_rr :
    [[0b00_00_0011], [0b00_01_0011], [0b00_10_0011], [0b00_11_0011]].map instrOf =
      [some .incBC, some .incDE, some .incHL, some .incSP] := by decide

theorem test_decode_arith_control :
    [[0b00010111], [0b10000110], [0b10101111], [0b11111110, 0x32], [0b10111110], [0b00100000, 0xFB], [0b11001101, 0x00, 0x02], [0b11001001], [0b11001011]].map instrOf =
      [some .rla, some .addAIndHL, some .xorAA, some (.cpAn8 0x32), some .cpAIndHL, some (.jrNZe8 0xFB), some (.callA16 0x0200), some .ret, some .prefixCB] := by decide

theorem test_decode_push_pop :
    [[0b11_00_0101], [0b11_01_0101], [0b11_10_0101], [0b11_00_0001], [0b11_01_0001], [0b11_10_0001]].map instrOf =
      [some .pushBC, some .pushDE, some .pushHL, some .popBC, some .popDE, some .popHL] := by decide

theorem test_decode_rlc_r :
    [[0b11001011, 0b00000_000], [0b11001011, 0b00000_001], [0b11001011, 0b00000_010], [0b11001011, 0b00000_011], [0b11001011, 0b00000_100], [0b11001011, 0b00000_101], [0b11001011, 0b00000_111]].map instrOf =
      [some .rlcB, some .rlcC, some .rlcD, some .rlcE, some .rlcH, some .rlcL, some .rlcA] := by decide

theorem test_decode_bit0 :
    [[0b11001011, 0b01_000_000], [0b11001011, 0b01_000_001], [0b11001011, 0b01_000_010], [0b11001011, 0b01_000_011], [0b11001011, 0b01_000_100], [0b11001011, 0b01_000_101], [0b11001011, 0b01_000_111]].map instrOf =
      [some .bit0B, some .bit0C, some .bit0D, some .bit0E, some .bit0H, some .bit0L, some .bit0A] := by decide

theorem test_decode_bit1 :
    [[0b11001011, 0b01_001_000], [0b11001011, 0b01_001_001], [0b11001011, 0b01_001_010], [0b11001011, 0b01_001_011], [0b11001011, 0b01_001_100], [0b11001011, 0b01_001_101], [0b11001011, 0b01_001_111]].map instrOf =
      [some .bit1B, some .bit1C, some .bit1D, some .bit1E, some .bit1H, some .bit1L, some .bit1A] := by decide

theorem test_decode_bit2 :
    [[0b11001011, 0b01_010_000], [0b11001011, 0b01_010_001], [0b11001011, 0b01_010_010], [0b11001011, 0b01_010_011], [0b11001011, 0b01_010_100], [0b11001011, 0b01_010_101], [0b11001011, 0b01_010_111]].map instrOf =
      [some .bit2B, some .bit2C, some .bit2D, some .bit2E, some .bit2H, some .bit2L, some .bit2A] := by decide

theorem test_decode_bit3 :
    [[0b11001011, 0b01_011_000], [0b11001011, 0b01_011_001], [0b11001011, 0b01_011_010], [0b11001011, 0b01_011_011], [0b11001011, 0b01_011_100], [0b11001011, 0b01_011_101], [0b11001011, 0b01_011_111]].map instrOf =
      [some .bit3B, some .bit3C, some .bit3D, some .bit3E, some .bit3H, some .bit3L, some .bit3A] := by decide

theorem test_decode_bit4 :
    [[0b11001011, 0b01_100_000], [0b11001011, 0b01_100_001], [0b11001011, 0b01_100_010], [0b11001011, 0b01_100_011], [0b11001011, 0b01_100_100], [0b11001011, 0b01_100_101], [0b11001011, 0b01_100_111]].map instrOf =
      [some .bit4B, some .bit4C, some .bit4D, some .bit4E, some .bit4H, some .bit4L, some .bit4A] := by decide

theorem test_decode_bit5 :
    [[0b11001011, 0b01_101_000], [0b11001011, 0b01_101_001], [0b11001011, 0b01_101_010], [0b11001011, 0b01_101_011], [0b11001011, 0b01_101_100], [0b11001011, 0b01_101_101], [0b11001011, 0b01_101_111]].map instrOf =
      [some .bit5B, some .bit5C, some .bit5D, some .bit5E, some .bit5H, some .bit5L, some .bit5A] := by decide

theorem test_decode_bit6 :
    [[0b11001011, 0b01_110_000], [0b11001011, 0b01_110_001], [0b11001011, 0b01_110_010], [0b11001011, 0b01_110_011], [0b11001011, 0b01_110_100], [0b11001011, 0b01_110_101], [0b11001011, 0b01_110_111]].map instrOf =
      [some .bit6B, some .bit6C, some .bit6D, some .bit6E, some .bit6H, some .bit6L, some .bit6A] := by decide

theorem test_decode_bit7 :
    [[0b11001011, 0b01_111_000], [0b11001011, 0b01_111_001], [0b11001011, 0b01_111_010], [0b11001011, 0b01_111_011], [0b11001011, 0b01_111_100], [0b11001011, 0b01_111_101], [0b11001011, 0b01_111_111]].map instrOf =
      [some .bit7B, some .bit7C, some .bit7D, some .bit7E, some .bit7H, some .bit7L, some .bit7A] := by decide

/-- The neighbours V10 calls unimplemented. -/
theorem test_decode_unimplemented :
    [[0x34], [0x35], [0x36, 0x00], [0x0B], [0x1B], [0x2B], [0x3B], [0x76], [0xF5], [0xF1]].map
        (fun bytes => match decode bytes with | .ok (i, _) => some i | .error _ => none) =
      [some (.unimplementedPrimary 0x34), some (.unimplementedPrimary 0x35), some (.unimplementedPrimary 0x36),
       some (.unimplementedPrimary 0x0B), some (.unimplementedPrimary 0x1B), some (.unimplementedPrimary 0x2B),
       some (.unimplementedPrimary 0x3B), some (.unimplementedPrimary 0x76), some (.unimplementedPrimary 0xF5),
       some (.unimplementedPrimary 0xF1)] := by decide

theorem test_decode_unimplemented_extended :
    [[0xCB, 0x06], [0xCB, 0x46], [0xCB, 0x7E], [0xCB, 0xCB]].map instrOf =
      [some (.unimplementedExtended 0x06), some (.unimplementedExtended 0x46), some (.unimplementedExtended 0x7E),
       some (.unimplementedExtended 0xCB)] := by decide

theorem test_decode_missing_operand : decode [0xCD, 0x00] = .error (.missingOperand 0xCD) := by rfl
theorem test_table_word_operand : decodeTableWord 8 0x01 = some (.ldBCn16 0x0000) := by decide
theorem test_table_word_pre : decodeTableWord 8 0xCB = some .prefixCB := by decide
theorem test_fetch_word : (s0.withFetchWord 8 0xC3).window = [0xC3, 0x00, 0x00] := by decide

/-! ### One Step (S1 to S6, V1 to V9) -/

/-- V1 -/
theorem test_ld_b_n8 :
    after [0x06, 0xAB] s0 (fun t => (t.b, t.pc, t.snapshot.f)) = some (0xAB, 0x0002, 0x00) := by decide

/-- V1 -/
theorem test_ld_a_n8_keeps_f :
    after [0x3E, 0x00] { s0 with f := flags true true true true } (fun t => (seeAF t, t.pc)) = some ((0x00, 0xF0), 0x0002) := by decide

/-- V1 -/
theorem test_ld_hl_n16 :
    after [0x21, 0xFF, 0x9F] s0 (fun t => (t.h, t.l, t.pc)) = some (0x9F, 0xFF, 0x0003) := by decide

/-- V1 -/
theorem test_ld_sp_n16 :
    after [0x31, 0xFE, 0xFF] s0 (fun t => (t.sp, t.pc)) = some (0xFFFE, 0x0003) := by decide

/-- V1: the fetch wraps -/
theorem test_ld_bc_n16_wraps :
    after [0x01, 0x34, 0x12] { s0 with pc := 0xFFFF } (fun t => (t.b, t.c, t.pc)) = some (0x12, 0x34, 0x0002) := by decide

/-- V1 -/
theorem test_ld_a_ind_bc :
    after [0x0A] (withByte { s0 with b := 0xC0, c := 0x10 } 0xC010 0x7B) (fun t => (t.a, t.pc)) = some (0x7B, 0x0001) := by decide

/-- V1 -/
theorem test_ld_a_ind_de :
    after [0x1A] (withByte { s0 with d := 0x01, e := 0x04 } 0x0104 0xCE) (fun t => t.a) = some 0xCE := by decide

/-- V1 -/
theorem test_ld_h_ind_hl :
    after [0x66] (withByte { s0 with h := 0xC0 } 0xC000 0x42) (fun t => (t.h, t.l)) = some (0x42, 0x00) := by decide

/-- V1 -/
theorem test_ld_l_ind_hl :
    after [0x6E] (withByte { s0 with h := 0xC0 } 0xC000 0x42) (fun t => (t.h, t.l)) = some (0xC0, 0x42) := by decide

/-- V1 -/
theorem test_ld_ind_bc_a :
    after [0x02] { s0 with b := 0x80, a := 0x5A } (fun t => (t.byteAt 0x8000, t.a)) = some (0x5A, 0x5A) := by decide

/-- V1: OAM is plain storage -/
theorem test_ld_ind_de_a :
    after [0x12] { s0 with d := 0xFE, a := 0x10 } (fun t => t.byteAt 0xFE00) = some 0x10 := by decide

/-- V1 -/
theorem test_ld_ind_hl_h :
    after [0x74] { s0 with h := 0xC1, l := 0x23 } (fun t => t.byteAt 0xC123) = some 0xC1 := by decide

/-- V1 -/
theorem test_ld_ind_hl_l :
    after [0x75] { s0 with h := 0xC1, l := 0x23 } (fun t => t.byteAt 0xC123) = some 0x23 := by decide

/-- V1: the ROM range is writable (R35) -/
theorem test_ld_ind_hl_b_rom :
    after [0x70] { s0 with h := 0x40, b := 0x99 } (fun t => t.byteAt 0x4000) = some 0x99 := by decide

/-- V1 -/
theorem test_ld_ind_hl_inc :
    after [0x22] { s0 with h := 0xFF, l := 0xFF, a := 0x3C } (fun t => (t.byteAt 0xFFFF, t.pair .hl)) = some (0x3C, 0x0000) := by decide

/-- V1: it overwrites its own opcode byte after the fetch -/
theorem test_ld_ind_hl_dec_own_opcode :
    after [0x32] { s0 with a := 0xEE } (fun t => (t.byteAt 0x0000, t.pair .hl, t.pc)) = some (0xEE, 0xFFFF, 0x0001) := by decide

/-- V1: the Interrupt-enable byte -/
theorem test_ldh_a8 :
    after [0xE0, 0xFF] { s0 with a := 0x1F } (fun t => (t.byteAt 0xFFFF, t.pc)) = some (0x1F, 0x0002) := by decide

/-- V1 -/
theorem test_ldh_c :
    after [0xE2] { s0 with c := 0x11, a := 0x80, b := 0x55 } (fun t => t.byteAt 0xFF11) = some 0x80 := by decide

/-- S1 -/
theorem test_dec_b_to_zero :
    after [0x05] { s0 with b := 0x01 } (fun t => (t.b, t.snapshot.f)) = some (0x00, 0xC0) := by decide

/-- S2 -/
theorem test_dec_b_wraps :
    after [0x05] s0 (fun t => (t.b, t.snapshot.f)) = some (0xFF, 0x60) := by decide

/-- S3 -/
theorem test_inc_c_half_carry :
    after [0x0C] { s0 with c := 0x0F } (fun t => (t.c, t.snapshot.f)) = some (0x10, 0x20) := by decide

/-- V2: C is kept -/
theorem test_inc_a_wraps :
    after [0x3C] { s0 with a := 0xFF, f := flags false false false true } (fun t => seeAF t) = some (0x00, 0xB0) := by decide

/-- V2: C is kept -/
theorem test_dec_a_half_borrow :
    after [0x3D] { s0 with a := 0x10, f := flags false false false true } (fun t => seeAF t) = some (0x0F, 0x70) := by decide

/-- V2 -/
theorem test_inc_l_no_carry_into_h :
    after [0x2C] { s0 with h := 0x80, l := 0xFF } (fun t => (t.h, t.l, t.snapshot.f)) = some (0x80, 0x00, 0xA0) := by decide

/-- V2 -/
theorem test_inc_bc :
    after [0x03] { s0 with b := 0x12, c := 0xFF, f := flags true true true true } (fun t => (t.pair .bc, t.snapshot.f)) = some (0x1300, 0xF0) := by decide

/-- V2 -/
theorem test_inc_sp :
    after [0x33] { s0 with sp := 0xFFFF } (fun t => t.sp) = some 0x0000 := by decide

/-- V3 -/
theorem test_rla_circular :
    after [0x17] { s0 with a := 0x80, f := flags true true true false } (fun t => seeAF t) = some (0x01, 0x10) := by decide

/-- V3: the result is 00 and Z stays 0 -/
theorem test_rla_through_carry :
    after [0x17] { s0 with a := 0x80, f := flags true true true false, rotateVariant := .throughCarry } (fun t => seeAF t) = some (0x00, 0x10) := by decide

/-- V3 -/
theorem test_rlc_c_circular :
    after [0xCB, 0x01] { s0 with c := 0xCE } (fun t => (t.c, t.snapshot.f, t.pc)) = some (0x9D, 0x10, 0x0002) := by decide

/-- V3 -/
theorem test_rlc_c_through_carry :
    after [0xCB, 0x01] { s0 with c := 0xCE, rotateVariant := .throughCarry } (fun t => (t.c, t.snapshot.f)) = some (0x9C, 0x10) := by decide

/-- V3 -/
theorem test_rlc_h :
    after [0xCB, 0x04] { s0 with h := 0x40, l := 0x01 } (fun t => (t.pair .hl, t.snapshot.f)) = some (0x8001, 0x00) := by decide

/-- V4 -/
theorem test_add_carries :
    after [0x86] (withByte { s0 with h := 0xC0, a := 0xFF, f := flags true true true true } 0xC000 0x01) (fun t => seeAF t) = some (0x00, 0xB0) := by decide

/-- V4 -/
theorem test_add_half_carry :
    after [0x86] (withByte { s0 with h := 0xC0, a := 0x19, f := flags true true true true } 0xC000 0x19) (fun t => seeAF t) = some (0x32, 0x20) := by decide

/-- V4 -/
theorem test_xor_a_a :
    after [0xAF] { s0 with a := 0x5A, f := flags false true true true } (fun t => seeAF t) = some (0x00, 0x80) := by decide

/-- V4 -/
theorem test_cp_borrow_only :
    after [0xFE, 0x10] { s0 with a := 0x01 } (fun t => seeAF t) = some (0x01, 0x50) := by decide

/-- V4 -/
theorem test_cp_half_borrow_only :
    after [0xFE, 0x01] { s0 with a := 0x10 } (fun t => seeAF t) = some (0x10, 0x60) := by decide

/-- V4 -/
theorem test_cp_ind_hl :
    after [0xBE] (withByte { s0 with a := 0x3C, h := 0x01, l := 0x04 } 0x0104 0x2F) (fun t => seeAF t) = some (0x3C, 0x60) := by decide

/-- V4: C is rewritten -/
theorem test_cp_ind_hl_equal :
    after [0xBE] { s0 with h := 0xC0, f := flags false false false true } (fun t => seeAF t) = some (0x00, 0xC0) := by decide

/-- V5 -/
theorem test_jr_taken :
    after [0x20, 0xFB] { s0 with pc := 0x000A } (fun t => t.pc) = some 0x0007 := by decide

/-- V5 -/
theorem test_jr_not_taken :
    after [0x20, 0xFB] { s0 with pc := 0x000A, f := flags true false false false } (fun t => t.pc) = some 0x000C := by decide

/-- S5, V5 -/
theorem test_call :
    after [0xCD, 0x00, 0x02] { s0 with pc := 0x0150, sp := 0xFFFE } (fun t => (t.pc, t.sp, t.byteAt 0xFFFD, t.byteAt 0xFFFC)) = some (0x0200, 0xFFFC, 0x01, 0x53) := by decide

/-- V5 -/
theorem test_call_sp_wraps :
    after [0xCD, 0x34, 0x12] { s0 with pc := 0x0150, sp := 0x0001 } (fun t => (t.pc, t.sp, t.byteAt 0x0000, t.byteAt 0xFFFF)) = some (0x1234, 0xFFFF, 0x01, 0x53) := by decide

/-- V5 -/
theorem test_ret :
    after [0xC9] (withByte (withByte { s0 with pc := 0x0200, sp := 0xFFFF } 0xFFFF 0x78) 0x0000 0x56) (fun t => (t.pc, t.sp)) = some (0x5678, 0x0001) := by decide

/-- V6 -/
theorem test_push_bc :
    after [0xC5] { s0 with b := 0xBE, c := 0xEF, sp := 0xD000 } (fun t => (t.byteAt 0xCFFF, t.byteAt 0xCFFE, t.sp)) = some (0xBE, 0xEF, 0xCFFE) := by decide

/-- V6 -/
theorem test_push_de :
    after [0xD5] { s0 with d := 0x12, e := 0x34 } (fun t => (t.byteAt 0xFFFF, t.byteAt 0xFFFE, t.sp)) = some (0x12, 0x34, 0xFFFE) := by decide

/-- V6 -/
theorem test_pop_hl :
    after [0xE1] (withByte (withByte { s0 with sp := 0xCFFE, f := flags true true true true } 0xCFFE 0xEF) 0xCFFF 0xBE) (fun t => (t.pair .hl, t.sp, t.snapshot.f)) = some (0xBEEF, 0xD000, 0xF0) := by decide

/-- V6 -/
theorem test_pop_bc_wraps :
    after [0xC1] (withByte { s0 with sp := 0xFFFF } 0xFFFF 0xAA) (fun t => (t.b, t.c, t.sp)) = some (0xC1, 0xAA, 0x0001) := by decide

/-- V7 -/
theorem test_bit7_h_set :
    after [0xCB, 0x7C] { s0 with h := 0x9F, f := flags true false false false } (fun t => (t.h, t.snapshot.f, t.pc)) = some (0x9F, 0x20, 0x0002) := by decide

/-- V7 -/
theorem test_bit7_h_clear :
    after [0xCB, 0x7C] { s0 with h := 0x7F, f := flags false false false true } (fun t => t.snapshot.f) = some 0xB0 := by decide

/-- V7 -/
theorem test_bit5_l :
    after [0xCB, 0x6D] { s0 with l := 0xDF } (fun t => t.snapshot.f) = some 0xA0 := by decide

/-- V8 -/
theorem test_unimplemented_primary :
    after [0x00] { s0 with a := 0x01, f := flags false true false true } (fun t => (seeAF t, t.pc, t.signal)) = some ((0x01, 0x50), 0x0001, some ⟨.primary, 0x00⟩) := by decide

/-- V8 -/
theorem test_unimplemented_extended :
    after [0xCB, 0xCB, 0x3C] s0 (fun t => (t.a, t.pc, t.signal)) = some (0x00, 0x0002, some ⟨.extended, 0xCB⟩) := by decide

/-- V8 -/
theorem test_push_af_is_unimplemented :
    after [0xF5] { s0 with sp := 0xFFFE } (fun t => (t.sp, t.byteAt 0xFFFD, t.pc)) = some (0xFFFE, 0x00, 0x0001) := by decide

/-- R25: an output of one Step -/
theorem test_signal_is_cleared :
    after [0x3C] { s0 with signal := some ⟨.primary, 0x00⟩ } (fun t => (t.a, t.signal)) = some (0x01, none) := by decide

/-- V9: the first and the last address of each region. -/
theorem test_regions :
    [0x0000, 0x3FFF, 0x4000, 0x7FFF, 0x8000, 0x9FFF, 0xA000, 0xBFFF, 0xC000, 0xCFFF, 0xD000, 0xDFFF].map region =
      [some .romBank0, some .romBank0, some .romBankN, some .romBankN, some .videoRam, some .videoRam,
       some .externalRam, some .externalRam, some .workRam1, some .workRam1, some .workRam2, some .workRam2] ∧
    [0xE000, 0xFDFF, 0xFE00, 0xFE9F, 0xFEA0, 0xFEFF, 0xFF00, 0xFF7F, 0xFF80, 0xFFFE, 0xFFFF].map region =
      [some .echoRam, some .echoRam, some .oam, some .oam, some .unusable, some .unusable,
       some .ioRegisters, some .ioRegisters, some .highRam, some .highRam, some .interruptEnable] := by decide

/-- S6. -/
theorem test_write_then_read :
    ((withByte s0 0x8000 0x5A).byteAt 0x8000, (withByte s0 0x8000 0x5A).byteAt 0x0000) = (0x5A, 0x00) := by decide

/-- Writing the value an unlisted byte reads as leaves no pair: equal contents are equal data. -/
theorem test_canonical : (withByte (withByte s0 0x8000 0x5A) 0x8000 0x00).mem = [] := by decide

/-- R206 over the first Steps of P5: `stop` ends at Step 1 with PC = 0001, `continue` does not. -/
theorem test_stop_policy :
    (match drive .stopRun 6 (withCode s0 [0x00, 0xC3, 0x3C]) with
      | .next r => some (r.final.pc, r.signals.length)
      | _ => none) = some (0x0001, 1) := by decide

theorem test_continue_policy :
    (match drive .continueRun 3 (withCode s0 [0x00, 0xC3, 0x3C]) with
      | .next r => some (r.final.a, r.final.pc, r.signals)
      | _ => none) =
      some (0x01, 0x0003, [some ⟨.primary, 0x00⟩, some ⟨.primary, 0xC3⟩, none]) := by decide

/-- P5 with `stop`: the unbounded run has ended at Step 1, however many Steps there is time for. -/
theorem test_unbounded_stop :
    [1, 2, 6].map (fun k =>
      match runSeq .stopRun .unbounded (withCode s0 [0x00, 0xC3, 0x3C]) k with
      | .next r => some (r.final.pc, r.signals.length)
      | _ => none) = [some (0x0001, 1), some (0x0001, 1), some (0x0001, 1)] := by decide

/-- R255: a length of 2 Steps, and no end when unbounded (R244: PC counts up over empty storage). -/
theorem test_run_lengths :
    [RunLength.steps 2, .unbounded].map (fun length =>
      match runSeq .continueRun length s0 5 with
      | .next r => some r.final.pc
      | _ => none) = [some 0x0002, some 0x0005] := by decide

/-- R7: the defaults. -/
theorem test_default_parameters :
    (({} : Parameters).rotateVariant, ({} : Parameters).unimplPolicy, ({} : Parameters).runLength) =
        (.circular, .continueRun, .unbounded) ∧
      ({} : Parameters).bootImage = [] ∧ ({} : Parameters).romNImage = Vector.replicate 16384 0 := ⟨rfl, rfl, rfl⟩

theorem test_bulk_load :
    (match bulkLoad [0xDE, 0xAD] s0 with | .ok t => some (t.byteAt 0x0000, t.byteAt 0x0001, t.pc) | .error _ => none) =
      some (0xDE, 0xAD, 0x0000) := by decide

/-! ### Witnesses: states and operands that meet the hypotheses of each obligation -/

theorem witness_DecodeOfEncodeIsTheInstruction :
    (Instr.callA16 0x0200).wellFormed = true ∧ (Instr.callA16 0x0200 = .prefixCB → ([0x01] : List Byte) = []) :=
  ⟨rfl, nofun⟩
theorem witness_DecodeOfEncodeIsTheInstruction_alone :
    Instr.prefixCB.wellFormed = true ∧ (Instr.prefixCB = .prefixCB → ([] : List Byte) = []) := ⟨rfl, fun _ => rfl⟩
theorem witness_EncodeOfDecodeIsTheBytes : decode [0xCD, 0x00, 0x02, 0xFF] = .ok (.callA16 0x0200, [0xFF]) := rfl

/-- `CALL 0x0200` at `0x0150`, with `RET` at the target (S5). -/
def callState : State := withByte (withCode { s0 with pc := 0x0150, sp := 0xFFFE } [0xCD, 0x00, 0x02]) 0x0200 0xC9

theorem witness_StepRunsDecodedInstruction : decode callState.window = .ok (.callA16 0x0200, []) := rfl
/-- The premise of `RunsAt`, in every statement that has it. -/
theorem witness_RunsAt :
    ∀ k, k < [0xCD, 0x00, 0x02].length →
      callState.byteAt (callState.pc + BitVec.ofNat 16 k) = ([0xCD, 0x00, 0x02] : List Byte).getD k 0 := by decide
theorem witness_StepKeepsStorageCanonical : Inv callState ∧ ∃ t, step callState = .next t := ⟨by decide, _, rfl⟩
theorem witness_ParameterIsConstantAndOutputUnread : ∃ t, step callState = .next t := ⟨_, rfl⟩
theorem witness_StepSignals_none :
    decode (withCode s0 [0x3C]).window = .ok (.incA, [0x00, 0x00]) ∧ ∃ t, step (withCode s0 [0x3C]) = .next t :=
  ⟨rfl, _, rfl⟩
theorem witness_StepSignals_primary :
    decode s0.window = .ok (.unimplementedPrimary 0x00, [0x00, 0x00]) ∧ ∃ t, step s0 = .next t := ⟨rfl, _, rfl⟩
theorem witness_StepSignals_extended :
    decode (withCode s0 [0xCB, 0x06]).window = .ok (.unimplementedExtended 0x06, [0x00]) ∧
      ∃ t, step (withCode s0 [0xCB, 0x06]) = .next t := ⟨rfl, _, rfl⟩

/-- `LD [HL],A` at 0 with HL = 1 and A the opcode of `INC A`. -/
def selfModifying : State := withCode { s0 with a := 0x3C, l := 0x01 } [0x77]

theorem witness_StoreIsSeenByTheNextFetch :
    selfModifying.byteAt selfModifying.pc = 0x77 ∧ selfModifying.indirect .hl = selfModifying.pc + 1 ∧
      decode [selfModifying.a] = .ok (.incA, []) ∧ Instr.incA ≠ .prefixCB := ⟨by decide, by decide, rfl, nofun⟩

theorem witness_FlagsObeyTheEffectTable : Instr.incB ≠ .prefixCB ∧ ∃ t, exec .incB s0 = .next t := ⟨nofun, _, rfl⟩
theorem witness_OnlyListedRegistersAreWritten : Instr.popBC ≠ .prefixCB ∧ ∃ t, exec .popBC s0 = .next t :=
  ⟨nofun, _, rfl⟩
theorem witness_OnlyListedAddressesAreStoredTo : Instr.pushBC ≠ .prefixCB ∧ ∃ t, exec .pushBC s0 = .next t :=
  ⟨nofun, _, rfl⟩
theorem witness_OnlyListedInstructionsMovePCOrSP :
    Instr.xorAA ≠ .prefixCB ∧ (∃ t, exec .xorAA s0 = .next t) ∧ Instr.writesPC .xorAA = false ∧
      Instr.writesSP .xorAA = false := ⟨nofun, ⟨_, rfl⟩, rfl, rfl⟩
theorem witness_FlagsOtherThanZStayInF :
    s0.rotateVariant = .circular ∧ (flags false true true true).z = s0.f.z ∧ flags false true true true ≠ s0.f :=
  ⟨rfl, rfl, by decide⟩

theorem witness_EveryAddressHasOneRegion :
    Region.echoRam.first ≤ (0xFDFF : Addr).toNat ∧ (0xFDFF : Addr).toNat < Region.echoRam.first + Region.echoRam.size := by
  decide
theorem witness_EchoRamMirrorsNothing_first :
    (0 < 7680) ∧ (∃ t, memWrite (BitVec.ofNat 16 (0xC000 + 0)) 0xAA s0 .next = .next t) ∧
      ∃ t, memWrite (BitVec.ofNat 16 (0xE000 + 0)) 0xAA s0 .next = .next t := ⟨by decide, ⟨_, rfl⟩, _, rfl⟩
theorem witness_EchoRamMirrorsNothing_last :
    (7679 < 7680) ∧ (∃ t, memWrite (BitVec.ofNat 16 (0xC000 + 7679)) 0xAA s0 .next = .next t) ∧
      ∃ t, memWrite (BitVec.ofNat 16 (0xE000 + 7679)) 0xAA s0 .next = .next t := ⟨by decide, ⟨_, rfl⟩, _, rfl⟩
theorem witness_BulkLoad_fits : (List.replicate 16384 (0x5A : Byte)).length ≤ 16384 :=
  Nat.le_of_eq List.length_replicate
theorem witness_BulkLoad_overflows : 16384 < (List.replicate 16385 (0x5A : Byte)).length := by
  rw [List.length_replicate]
  decide
theorem witness_InitialStateOfARun : (List.replicate 16384 (0x5A : Byte)).length ≤ 16384 :=
  Nat.le_of_eq List.length_replicate
theorem witness_RunUnderTheParameters_fits : (({} : Parameters).bootImage).length ≤ 16384 := Nat.zero_le _
theorem witness_RunUnderTheParameters_overflows :
    16384 < ({ bootImage := List.replicate 16385 0x5A } : Parameters).bootImage.length := by
  rw [List.length_replicate]
  decide
theorem witness_RunOfNStepsEnds_continue : UnimplPolicy.continueRun = .continueRun := rfl
theorem witness_UnboundedRunUnderStopEndsExactlyAtASignal : ∃ r, RunEnds .stopRun .unbounded s0 r :=
  ⟨{ final := { s0 with pc := 0x0001, signal := some ⟨.primary, 0x00⟩ }, signals := [some ⟨.primary, 0x00⟩] }, 1,
    fun j hj => by
      cases j with
      | zero => exact absurd hj (by decide)
      | succ j => exact drive_stops j rfl rfl⟩
theorem witness_LoadImmediate16_pair : Reg16.bc ≠ .sp := nofun
theorem witness_IncrementPair_pair : Reg16.hl ≠ .sp := nofun

/-- The hypothesis of `LoadIndirect`, by disjunct. -/
theorem witness_LoadIndirect_bc :
    Instr.ldAIndBC = .ldAIndBC ∧ Reg8.a = .a ∧ Pair.bc = .bc ∧ (0x0A : Byte) = 0x0A := ⟨rfl, rfl, rfl, rfl⟩
theorem witness_LoadIndirect_de :
    Instr.ldAIndDE = .ldAIndDE ∧ Reg8.a = .a ∧ Pair.de = .de ∧ (0x1A : Byte) = 0x1A := ⟨rfl, rfl, rfl, rfl⟩
theorem witness_LoadIndirect_hl :
    Instr.ldHIndHL = .ldRIndHL .h ∧ Pair.hl = .hl ∧ (0x66 : Byte) = inFieldY 0b01_000_110 (Reg8.code .h) :=
  ⟨rfl, rfl, by decide⟩
theorem witness_StoreIndirect_bc :
    Instr.ldIndBCA = .ldIndBCA ∧ Reg8.a = .a ∧ Pair.bc = .bc ∧ (0x02 : Byte) = 0x02 := ⟨rfl, rfl, rfl, rfl⟩
theorem witness_StoreIndirect_de :
    Instr.ldIndDEA = .ldIndDEA ∧ Reg8.a = .a ∧ Pair.de = .de ∧ (0x12 : Byte) = 0x12 := ⟨rfl, rfl, rfl, rfl⟩
theorem witness_StoreIndirect_hl :
    Instr.ldIndHLL = .ldIndHLR .l ∧ Pair.hl = .hl ∧ (0x75 : Byte) = inFieldZ 0b01110_000 (Reg8.code .l) :=
  ⟨rfl, rfl, by decide⟩
theorem witness_RotateLeft_rla : Instr.rla = .rla ∧ Reg8.a = .a ∧ ([0x17] : List Byte) = [0x17] := ⟨rfl, rfl, rfl⟩
theorem witness_RotateLeft_rlc :
    Instr.rlcA = .rlcR .a ∧ ([0xCB, 0x07] : List Byte) = [0xCB, inFieldZ 0b00000_000 (Reg8.code .a)] :=
  ⟨rfl, by decide⟩
theorem witness_RotateLeft_inner :
    (0 < 7) ∧ (6 < 7) ∧ s0.rotateVariant = .circular ∧
      ({ s0 with rotateVariant := .throughCarry } : State).rotateVariant = .throughCarry :=
  ⟨by decide, by decide, rfl, rfl⟩
theorem witness_AddMemoryToA :
    (0x19 : Byte) = (withByte s0 0x0000 0x19).byteAt ((withByte s0 0x0000 0x19).indirect .hl) := by decide
theorem witness_CompareWithA_immediate : Instr.cpAn8 0x32 = .cpAn8 0x32 ∧ ([0xFE, 0x32] : List Byte) = [0xFE, 0x32] :=
  ⟨rfl, rfl⟩
theorem witness_CompareWithA_memory :
    Instr.cpAIndHL = .cpAIndHL ∧ (0x2F : Byte) = (withByte s0 0x0000 0x2F).byteAt ((withByte s0 0x0000 0x2F).indirect .hl) ∧
      ([0xBE] : List Byte) = [0xBE] := ⟨rfl, by decide, rfl⟩
theorem witness_JumpRelativeIfNotZero : s0.f.z = false ∧ ({ s0 with f := flags true false false false } : State).f.z = true :=
  ⟨rfl, rfl⟩
theorem witness_CallThenReturnComesBack :
    ∃ t, decode callState.window = .ok (.callA16 0x0200, []) ∧ step callState = .next t ∧ t.byteAt 0x0200 = 0xC9 :=
  ⟨_, rfl, rfl, by decide⟩
theorem witness_UnimplementedSignalsAndGoesOn_primary :
    (0xC3 : Byte) ∈ unimplementedPrimaryValues ∧ (withCode s0 [0xC3]).byteAt (withCode s0 [0xC3]).pc = 0xC3 := by decide
theorem witness_UnimplementedSignalsAndGoesOn_extended :
    unimplementedExtendedValue 0xFF = true ∧ (withCode s0 [0xCB, 0xFF]).byteAt (withCode s0 [0xCB, 0xFF]).pc = 0xCB ∧
      (withCode s0 [0xCB, 0xFF]).byteAt ((withCode s0 [0xCB, 0xFF]).pc + 1) = 0xFF := by decide
theorem witness_EmptyStorageSignalsEveryStep : ∀ x : Addr, s0.byteAt x = 0x00 := fun _ => rfl

end Sys2Proof.Machine.Tests
end

section
/-! The scope (00_scope.md): what every Step keeps and never reads, the runs of each length, and the run under the five
parameters. -/

namespace Sys2Proof.Machine

/-! ### Every Step completes and keeps the rotate variant -/

/-- The rows of the extended map are rotates and bit tests (R68). -/
theorem extendedRows_are_rlc_or_bit :
    ∀ row ∈ extendedRows,
      (∃ r ∈ [Reg8.a, .b, .c, .d, .e, .h, .l], row.2 = .rlcR r) ∨
        ∃ b : Fin 8, ∃ r ∈ [Reg8.a, .b, .c, .d, .e, .h, .l], row.2 = .bitBR b r := by
  decide

/-- An extended opcode is a rotate, a bit test, or the fallback (R68, R69). -/
theorem decodeExtended_cases (x : Byte) :
    (∃ r, decodeExtended x = .rlcR r) ∨ (∃ b r, decodeExtended x = .bitBR b r) ∨
      decodeExtended x = .unimplementedExtended x := by
  cases h : extendedRows.lookup x with
  | none => exact .inr (.inr (by simp only [decodeExtended, h]))
  | some i =>
    have hi : decodeExtended x = i := by simp only [decodeExtended, h]
    obtain ⟨r, -, hr⟩ | ⟨b, r, -, hr⟩ := extendedRows_are_rlc_or_bit _ (mem_of_lookup_eq_some h)
    · exact .inl ⟨r, hi.trans hr⟩
    · exact .inr (.inl ⟨b, r, hi.trans hr⟩)

/-- The dispatch over the extended space runs the decoded instruction's own meaning (R170). -/
theorem executeExtended_eq_exec (x : Byte) (s : State) : executeExtended x s = exec (decodeExtended x) s := by
  unfold executeExtended
  obtain ⟨r, h⟩ | ⟨b, r, h⟩ | h := decodeExtended_cases x
  · rw [h]
    cases r <;> rfl
  · rw [h]
    fin_cases b <;> cases r <;> rfl
  · rw [h]
    rfl

/-- The outcome is a next state with the rotate variant of `s`. -/
def CompletesKeepingVariant (s : State) (o : Out) : Prop := ∃ t, o = .next t ∧ t.rotateVariant = s.rotateVariant

theorem executeExtended_completes (x : Byte) (s : State) : CompletesKeepingVariant s (executeExtended x s) := by
  rw [executeExtended_eq_exec]
  obtain ⟨r, h⟩ | ⟨b, r, h⟩ | h := decodeExtended_cases x <;> rw [h]
  · exact ⟨_, exec_rlcR r s, State.setReg8_rotateVariant _ _ _⟩
  · exact ⟨_, exec_bitBR b r s, rfl⟩
  · exact ⟨_, rfl, rfl⟩

/-- Every meaning ends in a next state and leaves the rotate variant (R7, R255), by instruction family. -/
theorem exec_completes (i : Instr) (s : State) : CompletesKeepingVariant s (exec i s) := by
  induction i using Instr.byFamily with
  | ldRN8 r n => exact ⟨_, exec_ldRN8 r n s, State.setReg8_rotateVariant _ _ _⟩
  | ldRRN16 r v => exact ⟨_, exec_ldRRN16 r v s, State.setReg16_rotateVariant _ _ _⟩
  | ldAIndBC => exact ⟨_, exec_ldAIndBC s, rfl⟩
  | ldAIndDE => exact ⟨_, exec_ldAIndDE s, rfl⟩
  | ldRIndHL r =>
    exact ⟨_, (exec_ldRIndHL r s).trans (loadIndirect_eq r .hl s), State.setReg8_rotateVariant _ _ _⟩
  | ldIndBCA => exact ⟨_, exec_ldIndBCA s, rfl⟩
  | ldIndDEA => exact ⟨_, exec_ldIndDEA s, rfl⟩
  | ldIndHLR r => exact ⟨_, (exec_ldIndHLR r s).trans (storeIndirect_eq .hl r s), rfl⟩
  | ldIndHLIncA => exact ⟨_, exec_ldIndHLIncA s, rfl⟩
  | ldIndHLDecA => exact ⟨_, exec_ldIndHLDecA s, rfl⟩
  | ldhIndA8A n => exact ⟨_, exec_ldhIndA8A n s, rfl⟩
  | ldhIndCA => exact ⟨_, exec_ldhIndCA s, rfl⟩
  | incR r => exact ⟨_, exec_incR r s, State.setReg8_rotateVariant _ _ _⟩
  | decR r => exact ⟨_, exec_decR r s, State.setReg8_rotateVariant _ _ _⟩
  | incRR r => exact ⟨_, exec_incRR r s, State.setReg16_rotateVariant _ _ _⟩
  | rla => exact ⟨_, exec_rla s, rfl⟩
  | rlcR r => exact ⟨_, exec_rlcR r s, State.setReg8_rotateVariant _ _ _⟩
  | addAIndHL => exact ⟨_, exec_addAIndHL s, rfl⟩
  | xorAA => exact ⟨_, exec_xorAA s, rfl⟩
  | cpAn8 n => exact ⟨_, exec_cpAn8 n s, rfl⟩
  | cpAIndHL => exact ⟨_, exec_cpAIndHL s, rfl⟩
  | jrNZe8 e => exact ⟨_, exec_jrNZe8 e s, rfl⟩
  | callA16 t => exact ⟨_, exec_callA16 t s, rfl⟩
  | ret => exact ⟨_, exec_ret s, rfl⟩
  | pushRR p => exact ⟨_, (exec_pushRR p s).trans (pushPair_eq p s), rfl⟩
  | popRR p => exact ⟨_, (exec_popRR p s).trans (popPair_eq p s), State.setPair_rotateVariant _ _ _⟩
  | prefixCB =>
    obtain ⟨t, ht, hv⟩ := executeExtended_completes (s.byteAt s.pc) { s with pc := s.pc + 1 }
    exact ⟨t, (exec_prefixCB s).trans ht, hv⟩
  | bitBR b r => exact ⟨_, exec_bitBR b r s, rfl⟩
  | unimplementedPrimary op => exact ⟨_, rfl, rfl⟩
  | unimplementedExtended x => exact ⟨_, rfl, rfl⟩

/-- A Step is one instruction's execution, with PC moved past its bytes and no failure output (R61). -/
theorem step_eq_exec (s : State) : ∃ i pc, step s = exec i { s with pc := pc, signal := none } := by
  rw [step, fetchInstr_eq]
  cases primaryEntry (s.clearSignal.byteAt s.clearSignal.pc) with
  | op i => exact ⟨i, _, rfl⟩
  | opN8 mk => exact ⟨mk _, _, rfl⟩
  | opN16 mk => exact ⟨mk _, _, rfl⟩
  | pre => exact ⟨.prefixCB, _, rfl⟩

theorem step_completes (s : State) : CompletesKeepingVariant s (step s) := by
  obtain ⟨i, pc, h⟩ := step_eq_exec s
  rw [h]
  exact exec_completes i { s with pc := pc, signal := none }

/-- A Step starts by clearing the failure output of the Step before, and so never reads it (R25). -/
theorem step_with_signal (s : State) (x : Option OpcodeSignal) : step { s with signal := x } = step s := rfl

/-! ### Runs of each length -/

/-- A run of at most `n` Steps completes; under `continue` it makes them all (R206, R255). -/
theorem drive_completes (policy : UnimplPolicy) (n : Nat) (s : State) :
    ∃ r, drive policy n s = .next r ∧ r.signals.length ≤ n ∧ (policy = .continueRun → r.signals.length = n) := by
  induction n generalizing s with
  | zero => exact ⟨_, drive_zero policy s, Nat.le_refl 0, fun _ => rfl⟩
  | succ n ih =>
    obtain ⟨t, hs, -⟩ := step_completes s
    by_cases hp : policy = .stopRun ∧ t.signal.isSome
    · obtain ⟨rfl, ht⟩ := hp
      exact ⟨_, drive_stops n hs ht, Nat.le_add_left 1 n, nofun⟩
    · obtain ⟨r, hr, hle, heq⟩ := ih t
      exact ⟨_, drive_goes_on hs hp hr, Nat.succ_le_succ hle, fun hc => congrArg Nat.succ (heq hc)⟩

/-- A run whose length is `n` Steps ends with the record of those Steps (R255). -/
theorem runEnds_steps {policy : UnimplPolicy} {n : Nat} {s : State} {r : RunRecord} (h : drive policy n s = .next r) :
    RunEnds policy (.steps n) s r :=
  ⟨n, fun _ hj => (runSeq_steps_of_le policy s hj).trans h⟩

/-- After `k` Steps the unbounded run under `continue` has `k` outcomes. -/
theorem runSeq_unbounded_continue (s : State) (k : Nat) :
    ∃ r, runSeq .continueRun .unbounded s k = .next r ∧ r.signals.length = k := by
  obtain ⟨r, hr, -, hlen⟩ := drive_completes .continueRun k s
  exact ⟨r, hr, hlen rfl⟩

theorem length_of_runSeq_unbounded_continue {s : State} {k : Nat} {r : RunRecord}
    (h : runSeq .continueRun .unbounded s k = .next r) : r.signals.length = k := by
  obtain ⟨r', hr', hlen⟩ := runSeq_unbounded_continue s k
  cases h.symm.trans hr'
  exact hlen

/-- No record is the end of an unbounded run under `continue`: it would have to stay while the run grows. -/
theorem not_runEnds_unbounded_continue (s : State) (r : RunRecord) : ¬ RunEnds .continueRun .unbounded s r := by
  rintro ⟨k, hend⟩
  have at_k := length_of_runSeq_unbounded_continue (hend k (Nat.le_refl k))
  have at_succ := length_of_runSeq_unbounded_continue (hend (k + 1) (Nat.le_succ k))
  omega

/-! ### The run under the five parameters -/

theorem bulkLoad_of_le {bytes : List Byte} (h : bytes.length ≤ Config.bulkLoadCapacity) (s : State) :
    bulkLoad bytes s = .ok { s with mem := s.mem.writeAll Region.romBank0.first bytes } := if_pos h

theorem bulkLoad_of_gt {bytes : List Byte} (h : Config.bulkLoadCapacity < bytes.length) (s : State) :
    bulkLoad bytes s = .error .bulkLoadOverflow := if_neg (Nat.not_le.mpr h)

theorem initial_of_le (variant : RotateVariant) (romN : Vector Byte Config.romNSize) {boot : List Byte}
    (h : boot.length ≤ Config.bulkLoadCapacity) : ∃ s, State.initial variant romN boot = .ok s :=
  ⟨_, bulkLoad_of_le h _⟩

theorem initial_of_gt (variant : RotateVariant) (romN : Vector Byte Config.romNSize) {boot : List Byte}
    (h : Config.bulkLoadCapacity < boot.length) : State.initial variant romN boot = .error .bulkLoadOverflow :=
  bulkLoad_of_gt h _

/-- The defaults of the three parameters of the initial state give the reset state (R7, R243). -/
theorem initial_default :
    State.initial Config.defaultRotateVariant Config.defaultRomNImage Config.defaultBootImage = .ok State.reset := by
  calc State.initial Config.defaultRotateVariant Config.defaultRomNImage Config.defaultBootImage
      = .ok (loadRomN Config.defaultRomNImage State.reset) := bulkLoad_nil _
    _ = .ok State.reset := by rw [loadRomN_default rfl]

/-- A run starts in the initial state its parameters give (R242). -/
theorem runFromReset_of_ok {p : Parameters} {s : State}
    (h : State.initial p.rotateVariant p.romNImage p.bootImage = .ok s) :
    runFromReset p = .ok (runSeq p.unimplPolicy p.runLength s) := by
  simp only [runFromReset, h]

/-- A run whose load failed never starts (R205). -/
theorem runFromReset_of_error {p : Parameters} {e : Failure}
    (h : State.initial p.rotateVariant p.romNImage p.bootImage = .error e) : runFromReset p = .error e := by
  simp only [runFromReset, h]

end Sys2Proof.Machine

open Sys2Proof Sys2Proof.Machine

/-- Settles O14: every Step completes with the variant it started from, and clears the old output before it fetches. -/
theorem parameterIsConstantAndOutputUnread : Obligations.ParameterIsConstantAndOutputUnread := by
  intro s t x h
  obtain ⟨u, hu, hvariant⟩ := step_completes s
  cases h.symm.trans hu
  exact ⟨hvariant, (step_with_signal s x).trans h⟩

/-- Settles O55: the record of `n` Steps is the run's end, since the driver makes no more. -/
theorem runOfNStepsEnds : Obligations.RunOfNStepsEnds := by
  intro policy n s
  obtain ⟨r, hr, hle, heq⟩ := drive_completes policy n s
  exact ⟨r, hr, runEnds_steps hr, hle, heq⟩

/-- Settles O56: the number of outcomes grows with every Step. -/
theorem unboundedRunUnderContinueNeverEnds : Obligations.UnboundedRunUnderContinueNeverEnds :=
  fun s => ⟨runSeq_unbounded_continue s, not_runEnds_unbounded_continue s⟩

/-- Settles O58, by whether the boot image fits; the default images leave the reset state as it is. -/
theorem runUnderTheParameters : Obligations.RunUnderTheParameters := by
  refine ⟨fun p hfits => ?_, fun p hlong => ?_, ?_⟩
  · obtain ⟨s, hs⟩ := initial_of_le p.rotateVariant p.romNImage hfits
    exact ⟨s, hs, runFromReset_of_ok hs⟩
  · exact runFromReset_of_error (initial_of_gt p.rotateVariant p.romNImage hlong)
  · exact runFromReset_of_ok (p := {}) initial_default
end

section
/-! The state (10_state.md): what the bytes at PC make a Step run, what every instruction leaves unchanged by the tables of
R13, R18 and R22, the canonical form of storage, the flags that reach nothing but F, and the registers and pairs. -/

namespace Sys2Proof.Machine

/-! ### A Step runs the instruction its window decodes to -/

/-- The lengths of the formats of R63: a row with no operand byte is an instruction of one byte, and not the one that
fetches a second opcode byte itself. -/
def FormatLength : PrimaryEntry → Prop
  | .op i => i.length = 1 ∧ i ≠ .prefixCB
  | .opN8 mk => ∀ n, (mk n).length = 2
  | .opN16 mk => ∀ v, (mk v).length = 3
  | .pre => True

theorem primaryRows_formatLength : ∀ row ∈ primaryRows, FormatLength row.2 := by
  simp [primaryRows, primaryRows01, primaryRows23, primaryRows47, primaryRows8B, primaryRowsCF, FormatLength, Instr.length]

/-- Every primary opcode value selects an entry of its format's length (R63, R67). -/
theorem primaryEntry_formatLength (op : Byte) : FormatLength (primaryEntry op) := by
  cases h : primaryRows.lookup op with
  | none =>
    have hop : primaryEntry op = .op (.unimplementedPrimary op) := by simp only [primaryEntry, h]
    rw [hop]
    exact ⟨rfl, nofun⟩
  | some e =>
    have hop : primaryEntry op = e := by simp only [primaryEntry, h]
    rw [hop]
    exact primaryRows_formatLength _ (mem_of_lookup_eq_some h)

theorem extendedRows_length : ∀ row ∈ extendedRows, row.2.length = 2 := by decide

/-- An extended instruction is two bytes long, its first byte included (R70). -/
theorem length_decodeExtended (x : Byte) : (decodeExtended x).length = 2 := by
  cases h : extendedRows.lookup x with
  | none => simp only [decodeExtended, h, Instr.length]
  | some i =>
    simp only [decodeExtended, h]
    exact extendedRows_length _ (mem_of_lookup_eq_some h)

theorem ne_prefixCB_of_length {i : Instr} (h : i.length ≠ 1) : i ≠ .prefixCB := by
  rintro rfl
  exact h rfl

/-- The state in which the meaning of an instruction at PC runs: PC past its bytes, no failure output (R14, R25, R61). -/
def afterFetch (s : State) (i : Instr) : State := { s with pc := s.pc + BitVec.ofNat 16 i.length, signal := none }

/-- A Step moves PC to where the meaning of an instruction of `n` bytes starts. -/
theorem afterFetch_eq {s : State} {i : Instr} {pc : Addr} {n : Nat} (hi : i.length = n) (hpc : pc = s.pc + BitVec.ofNat 16 n) :
    afterFetch s i = { s with pc := pc, signal := none } := by
  rw [afterFetch, hi, hpc]

/-- The bytes at PC always hold a whole instruction, which the Step runs (R61 to R63, R70). It is never the bare `0xCB`,
whose second byte is in the window (R71). -/
theorem step_runs_window (s : State) :
    ∃ i rest, decode s.window = .ok (i, rest) ∧ i ≠ .prefixCB ∧ step s = exec i (afterFetch s i) := by
  have hlen := primaryEntry_formatLength (s.byteAt s.pc)
  rw [step, fetchInstr_eq]
  simp only [State.window, decode, State.clearSignal_byteAt, State.clearSignal_pc, add_one_add_one]
  cases hop : primaryEntry (s.byteAt s.pc) with
  | op i =>
    obtain ⟨hi, hne⟩ : i.length = 1 ∧ i ≠ .prefixCB := by rwa [hop] at hlen
    exact ⟨i, _, rfl, hne, by rw [afterFetch_eq hi rfl]; rfl⟩
  | opN8 mk =>
    have hi : ∀ n, (mk n).length = 2 := by rwa [hop] at hlen
    refine ⟨mk _, _, rfl, ne_prefixCB_of_length (by rw [hi]; decide), ?_⟩
    rw [afterFetch_eq (hi _) rfl]
    rfl
  | opN16 mk =>
    have hi : ∀ v, (mk v).length = 3 := by rwa [hop] at hlen
    refine ⟨mk _, _, rfl, ne_prefixCB_of_length (by rw [hi]; decide), ?_⟩
    rw [afterFetch_eq (hi _) (BitVec.add_assoc s.pc 2 1)]
    rfl
  | pre =>
    have hi := length_decodeExtended (s.byteAt (s.pc + 1))
    refine ⟨decodeExtended _, _, rfl, ne_prefixCB_of_length (by rw [hi]; decide), ?_⟩
    rw [afterFetch_eq hi (add_one_add_one s.pc), ← executeExtended_eq_exec]
    exact exec_prefixCB _

theorem step_of_decode_window {s : State} {i : Instr} {rest : List Byte} (h : decode s.window = .ok (i, rest)) :
    step s = exec i (afterFetch s i) := by
  obtain ⟨i', rest', h', -, hstep⟩ := step_runs_window s
  cases h.symm.trans h'
  exact hstep

/-! ### What an update of the state leaves unchanged, by table entry -/

/-- What the tables of R13, R18 and R22 list for one instruction started in one state. -/
structure TableEntry where
  flags : FlagRow
  regs : List Reg8
  stores : List Addr
  movesPC : Bool
  movesSP : Bool

/-- The entry of an instruction, from the spec's tables. -/
def tableEntry (i : Instr) (s : State) : TableEntry where
  flags := i.flagRow
  regs := i.writesReg8
  stores := i.stores s
  movesPC := i.writesPC
  movesSP := i.writesSP

/-- The transition changes nothing but what the entry lists, and storage stays canonical. -/
structure TableEntry.Permits (entry : TableEntry) (s t : State) : Prop where
  flags : entry.flags.holds s.f t.f
  regs : Reg8Unchanged entry.regs s t
  stores : MemoryUnchanged entry.stores s t
  pc : entry.movesPC = false → t.pc = s.pc
  sp : entry.movesSP = false → t.sp = s.sp
  storage : Inv s → Inv t

/-- The row of the instructions that affect no flag (R18). -/
def keptRow : FlagRow := ⟨.kept, .kept, .kept, .kept⟩

theorem keptRow_holds {f g : Flags} (h : g = f) : keptRow.holds f g := by
  subst h
  exact ⟨rfl, rfl, rfl, rfl⟩

theorem memoryUnchanged_of_mem_eq {s t : State} (h : t.mem = s.mem) (listed : List Addr) : MemoryUnchanged listed s t :=
  fun x _ => congrArg (fun m => Memory.read m x.toNat) h

theorem inv_of_mem_eq {s t : State} (h : t.mem = s.mem) (hs : Inv s) : Inv t := by
  rwa [Inv, h]

theorem reg8Unchanged_setReg8_setReg8 (s : State) (high low : Reg8) (v w : Byte) :
    Reg8Unchanged [high, low] s ((s.setReg8 high v).setReg8 low w) := by
  intro r hr
  obtain ⟨hhigh, hlow⟩ : r ≠ high ∧ r ≠ low := by simpa using hr
  exact (State.reg8_setReg8_of_ne _ low r w hlow).trans (State.reg8_setReg8_of_ne s high r v hhigh)

/-- A pair's write leaves the registers it is not made of (R11). -/
theorem reg8Unchanged_setPair (s : State) (p : Pair) (v : Addr) : Reg8Unchanged p.halves s (s.setPair p v) := by
  cases p <;> exact reg8Unchanged_setReg8_setReg8 s _ _ (highByte v) (lowByte v)

section updates
variable {s : State} {row : FlagRow} {f : Flags} {regs : List Reg8} {stores : List Addr} {pc sp : Addr}
  {movesPC movesSP : Bool}

/-- Flags, PC, SP and the failure output change, storage and the seven registers do not. -/
theorem permits_control (signal : Option OpcodeSignal) (hf : row.holds s.f f) (hpc : movesPC = false → pc = s.pc)
    (hsp : movesSP = false → sp = s.sp) :
    TableEntry.Permits ⟨row, regs, stores, movesPC, movesSP⟩ s { s with f := f, pc := pc, sp := sp, signal := signal } where
  flags := hf
  regs r _ := by cases r <;> rfl
  stores := memoryUnchanged_of_mem_eq rfl _
  pc := hpc
  sp := hsp
  storage := id

/-- Only the flags change. -/
theorem permits_flags (hf : row.holds s.f f) :
    TableEntry.Permits ⟨row, regs, stores, false, false⟩ s { s with f := f } :=
  permits_control s.signal hf (fun _ => rfl) fun _ => rfl

/-- One register and the flags change. -/
theorem permits_setReg8_flags {r : Reg8} (v : Byte) (hf : row.holds s.f f) :
    TableEntry.Permits ⟨row, [r], stores, false, false⟩ s { s.setReg8 r v with f := f } where
  flags := hf
  regs q hq := (State.reg8_with_f _ _ _).trans (State.reg8_setReg8_of_ne s r q v (by simpa using hq))
  stores := memoryUnchanged_of_mem_eq (State.setReg8_mem s r v) _
  pc _ := State.setReg8_pc s r v
  sp _ := State.setReg8_sp s r v
  storage := inv_of_mem_eq (State.setReg8_mem s r v)

/-- One register changes. -/
theorem permits_setReg8 {r : Reg8} (v : Byte) :
    TableEntry.Permits ⟨keptRow, [r], stores, false, false⟩ s (s.setReg8 r v) :=
  permits_setReg8_flags v (keptRow_holds (State.setReg8_f s r v))

/-- SP and one pair change. -/
theorem permits_setPair (p : Pair) (v : Addr) (hsp : movesSP = false → sp = s.sp) :
    TableEntry.Permits ⟨keptRow, p.halves, stores, false, movesSP⟩ s (State.setPair { s with sp := sp } p v) where
  flags := keptRow_holds (State.setPair_f _ p v)
  regs r hr := (reg8Unchanged_setPair _ p v r hr).trans (State.reg8_with_sp _ _ _)
  stores := memoryUnchanged_of_mem_eq (State.setPair_mem _ p v) _
  pc _ := State.setPair_pc _ p v
  sp h := (State.setPair_sp _ p v).trans (hsp h)
  storage := inv_of_mem_eq (State.setPair_mem _ p v)

/-- A 16-bit operand changes: a pair, or SP. -/
theorem permits_setReg16 (r : Reg16) (v : Addr) :
    TableEntry.Permits ⟨keptRow, r.halves, stores, false, decide (r = .sp)⟩ s (s.setReg16 r v) := by
  cases r with
  | bc => exact permits_setPair .bc v fun _ => rfl
  | de => exact permits_setPair .de v fun _ => rfl
  | hl => exact permits_setPair .hl v fun _ => rfl
  | sp => exact permits_control s.signal (keptRow_holds rfl) (fun _ => rfl) nofun

/-- One byte of storage changes (R34). -/
theorem permits_write (x : Addr) (v : Byte) :
    TableEntry.Permits ⟨keptRow, regs, [x], false, false⟩ s { s with mem := s.mem.write x.toNat v } where
  flags := keptRow_holds rfl
  regs r _ := State.reg8_with_mem _ _ _
  stores y hy := (State.byteAt_write s x y v).trans (if_neg (by simpa using hy))
  pc _ := rfl
  sp _ := rfl
  storage h := Memory.wf_write h x.isLt

/-- One byte of storage and a pair change (R108, R109). -/
theorem permits_write_setPair (x : Addr) (v : Byte) (p : Pair) (w : Addr) :
    TableEntry.Permits ⟨keptRow, p.halves, [x], false, false⟩ s
      (State.setPair { s with mem := s.mem.write x.toNat v } p w) :=
  have stored := permits_write (s := s) (regs := []) x v
  { flags := keptRow_holds (State.setPair_f _ p w)
    regs := fun r hr => (reg8Unchanged_setPair _ p w r hr).trans (stored.regs r (by simp))
    stores := fun y hy => (State.setPair_byteAt _ p w y).trans (stored.stores y hy)
    pc := fun _ => State.setPair_pc _ p w
    sp := fun _ => State.setPair_sp _ p w
    storage := fun h => inv_of_mem_eq (State.setPair_mem _ p w) (stored.storage h) }

/-- A push, with or without a jump: the two bytes below SP change (R151, R160). -/
theorem permits_push (v : Addr) (hpc : movesPC = false → pc = s.pc) :
    TableEntry.Permits ⟨keptRow, regs, [s.sp - 1, s.sp - 2], movesPC, true⟩ s
      { s with pc := pc, sp := sp, mem := pushedMem s v } where
  flags := keptRow_holds rfl
  regs r _ := by cases r <;> rfl
  stores x hx := by
    obtain ⟨hhigh, hlow⟩ : x ≠ s.sp - 1 ∧ x ≠ s.sp - 2 := by simpa using hx
    exact (read_pushedMem s v x).trans (by rw [if_neg hlow, if_neg hhigh])
  pc := hpc
  sp := nofun
  storage := wf_pushedMem

end updates

/-! ### The entry of each family with a register, pair or bit operand -/

section entries
variable (s : State)

theorem tableEntry_ldRN8 (r : Reg8) (n : Byte) : tableEntry (.ldRN8 r n) s = ⟨keptRow, [r], [], false, false⟩ := by
  cases r <;> rfl
theorem tableEntry_ldRRN16 (r : Reg16) (v : Addr) :
    tableEntry (.ldRRN16 r v) s = ⟨keptRow, r.halves, [], false, decide (r = .sp)⟩ := by cases r <;> rfl
theorem tableEntry_ldRIndHL (r : Reg8) : tableEntry (.ldRIndHL r) s = ⟨keptRow, [r], [], false, false⟩ := by
  cases r <;> rfl
theorem tableEntry_ldIndHLR (r : Reg8) :
    tableEntry (.ldIndHLR r) s = ⟨keptRow, [], [s.indirect .hl], false, false⟩ := by cases r <;> rfl
theorem tableEntry_incR (r : Reg8) :
    tableEntry (.incR r) s = ⟨⟨.computed, .cleared, .computed, .kept⟩, [r], [], false, false⟩ := by cases r <;> rfl
theorem tableEntry_decR (r : Reg8) :
    tableEntry (.decR r) s = ⟨⟨.computed, .set, .computed, .kept⟩, [r], [], false, false⟩ := by cases r <;> rfl
theorem tableEntry_incRR (r : Reg16) :
    tableEntry (.incRR r) s = ⟨keptRow, r.halves, [], false, decide (r = .sp)⟩ := by cases r <;> rfl
theorem tableEntry_rlcR (r : Reg8) :
    tableEntry (.rlcR r) s = ⟨⟨.cleared, .cleared, .cleared, .computed⟩, [r], [], false, false⟩ := by cases r <;> rfl
theorem tableEntry_pushRR (p : Pair) :
    tableEntry (.pushRR p) s = ⟨keptRow, [], [s.sp - 1, s.sp - 2], false, true⟩ := by cases p <;> rfl
theorem tableEntry_popRR (p : Pair) : tableEntry (.popRR p) s = ⟨keptRow, p.halves, [], false, true⟩ := by
  cases p <;> rfl
theorem tableEntry_bitBR (b : Fin 8) (r : Reg8) :
    tableEntry (.bitBR b r) s = ⟨⟨.computed, .cleared, .set, .kept⟩, [], [], false, false⟩ := by
  fin_cases b <;> cases r <;> rfl

end entries

/-! ### Every meaning changes only what its entry lists -/

/-- The outcome is a next state that the instruction's table entry permits. -/
def ObeysTables (i : Instr) (s : State) : Prop := ∃ t, exec i s = .next t ∧ (tableEntry i s).Permits s t

theorem ObeysTables.intro {i : Instr} {s t : State} {entry : TableEntry} (hexec : exec i s = .next t)
    (hentry : tableEntry i s = entry) (h : entry.Permits s t) : ObeysTables i s :=
  ⟨t, hexec, hentry ▸ h⟩

/-- The tables of R13, R18 and R22 hold of every instruction, by family; the bare `0xCB` has no effect of its own. -/
theorem exec_obeysTables (i : Instr) (s : State) (hi : i ≠ .prefixCB) : ObeysTables i s := by
  induction i using Instr.byFamily with
  | ldRN8 r n => exact .intro (exec_ldRN8 r n s) (tableEntry_ldRN8 s r n) (permits_setReg8 n)
  | ldRRN16 r v => exact .intro (exec_ldRRN16 r v s) (tableEntry_ldRRN16 s r v) (permits_setReg16 r v)
  | ldAIndBC => exact .intro (exec_ldAIndBC s) rfl (permits_setReg8 (r := .a) _)
  | ldAIndDE => exact .intro (exec_ldAIndDE s) rfl (permits_setReg8 (r := .a) _)
  | ldRIndHL r =>
    exact .intro ((exec_ldRIndHL r s).trans (loadIndirect_eq r .hl s)) (tableEntry_ldRIndHL s r) (permits_setReg8 _)
  | ldIndBCA => exact .intro (exec_ldIndBCA s) rfl (permits_write _ _)
  | ldIndDEA => exact .intro (exec_ldIndDEA s) rfl (permits_write _ _)
  | ldIndHLR r =>
    exact .intro ((exec_ldIndHLR r s).trans (storeIndirect_eq .hl r s)) (tableEntry_ldIndHLR s r) (permits_write _ _)
  | ldIndHLIncA => exact .intro (exec_ldIndHLIncA s) rfl (permits_write_setPair _ _ .hl _)
  | ldIndHLDecA => exact .intro (exec_ldIndHLDecA s) rfl (permits_write_setPair _ _ .hl _)
  | ldhIndA8A n => exact .intro (exec_ldhIndA8A n s) rfl (permits_write _ _)
  | ldhIndCA => exact .intro (exec_ldhIndCA s) rfl (permits_write _ _)
  | incR r =>
    exact .intro (exec_incR r s) (tableEntry_incR s r) (permits_setReg8_flags _ ⟨trivial, rfl, trivial, rfl⟩)
  | decR r =>
    exact .intro (exec_decR r s) (tableEntry_decR s r) (permits_setReg8_flags _ ⟨trivial, rfl, trivial, rfl⟩)
  | incRR r => exact .intro (exec_incRR r s) (tableEntry_incRR s r) (permits_setReg16 r _)
  | rla => exact .intro (exec_rla s) rfl (permits_setReg8_flags (r := .a) _ ⟨rfl, rfl, rfl, trivial⟩)
  | rlcR r =>
    exact .intro (exec_rlcR r s) (tableEntry_rlcR s r) (permits_setReg8_flags _ ⟨rfl, rfl, rfl, trivial⟩)
  | addAIndHL =>
    exact .intro (exec_addAIndHL s) rfl (permits_setReg8_flags (r := .a) _ ⟨trivial, rfl, trivial, trivial⟩)
  | xorAA => exact .intro (exec_xorAA s) rfl (permits_setReg8_flags (r := .a) _ ⟨rfl, rfl, rfl, rfl⟩)
  | cpAn8 n => exact .intro (exec_cpAn8 n s) rfl (permits_flags ⟨trivial, rfl, trivial, trivial⟩)
  | cpAIndHL => exact .intro (exec_cpAIndHL s) rfl (permits_flags ⟨trivial, rfl, trivial, trivial⟩)
  | jrNZe8 e =>
    exact .intro (exec_jrNZe8 e s) rfl (permits_control s.signal (keptRow_holds rfl) nofun fun _ => rfl)
  | callA16 a => exact .intro (exec_callA16 a s) rfl (permits_push s.pc nofun)
  | ret => exact .intro (exec_ret s) rfl (permits_control s.signal (keptRow_holds rfl) nofun nofun)
  | pushRR p =>
    exact .intro ((exec_pushRR p s).trans (pushPair_eq p s)) (tableEntry_pushRR s p) (permits_push _ fun _ => rfl)
  | popRR p =>
    exact .intro ((exec_popRR p s).trans (popPair_eq p s)) (tableEntry_popRR s p) (permits_setPair p _ nofun)
  | prefixCB => exact absurd rfl hi
  | bitBR b r => exact .intro (exec_bitBR b r s) (tableEntry_bitBR s b r) (permits_flags ⟨trivial, rfl, rfl, rfl⟩)
  | unimplementedPrimary op =>
    exact .intro rfl rfl (permits_control (some ⟨.primary, op⟩) (keptRow_holds rfl) (fun _ => rfl) fun _ => rfl)
  | unimplementedExtended x =>
    exact .intro rfl rfl (permits_control (some ⟨.extended, x⟩) (keptRow_holds rfl) (fun _ => rfl) fun _ => rfl)

theorem permits_of_exec {i : Instr} {s t : State} (hi : i ≠ .prefixCB) (h : exec i s = .next t) :
    (tableEntry i s).Permits s t := by
  obtain ⟨u, hu, permitted⟩ := exec_obeysTables i s hi
  cases h.symm.trans hu
  exact permitted

/-- A Step keeps the canonical form: fetching changes no storage, and the meaning keeps it. -/
theorem step_keeps_inv {s t : State} (hs : Inv s) (h : step s = .next t) : Inv t := by
  obtain ⟨i, -, -, hi, hstep⟩ := step_runs_window s
  exact (permits_of_exec hi (hstep.symm.trans h)).storage hs

/-! ### With the circular rotate only Z is read -/

/-- The circular rotate takes bit 0 from bit 7, whatever the carry is (R132). -/
theorem rotL_of_circular {variant : RotateVariant} (h : variant = .circular) (v : Byte) (cin cin' : Bool) :
    rotL variant v cin = rotL variant v cin' := by
  subst h
  rfl

/-- A circular rotate reads no flag and writes all four. -/
theorem rotateReg8_with_flags {s : State} (h : s.rotateVariant = .circular) (g : Flags) (r : Reg8) :
    rotateReg8 r { s with f := g } = rotateReg8 r s := by
  simp only [rotateReg8, rotL_of_circular h _ g.c s.f.c, State.reg8_with_f]
  cases r <;> rfl

/-- The first outcome is a next state, and the second is that state but for flags that agree with its own in Z. -/
def SameButFlags (o o' : Out) : Prop := ∃ t g, o = .next t ∧ o' = .next { t with f := g } ∧ g.z = t.f.z

theorem sameButFlags_rotateReg8 {s : State} (h : s.rotateVariant = .circular) (g : Flags) (r : Reg8) :
    SameButFlags (rotateReg8 r s) (rotateReg8 r { s with f := g }) :=
  ⟨_, _, rfl, rotateReg8_with_flags h g r, rfl⟩

/-- Changing N, H and C before an instruction changes nothing but those flags after it, by family: the relative jump alone
reads a flag, and it reads Z (R150). -/
theorem exec_with_flags (i : Instr) {s : State} {g : Flags} (hi : i ≠ .prefixCB) (hv : s.rotateVariant = .circular)
    (hz : g.z = s.f.z) : SameButFlags (exec i s) (exec i { s with f := g }) := by
  induction i using Instr.byFamily with
  | ldRN8 r n => cases r <;> exact ⟨_, g, rfl, rfl, hz⟩
  | ldRRN16 r v => cases r <;> exact ⟨_, g, rfl, rfl, hz⟩
  | ldAIndBC => exact ⟨_, g, exec_ldAIndBC s, exec_ldAIndBC _, hz⟩
  | ldAIndDE => exact ⟨_, g, exec_ldAIndDE s, exec_ldAIndDE _, hz⟩
  | ldRIndHL r =>
    rw [exec_ldRIndHL, exec_ldRIndHL, loadIndirect_eq, loadIndirect_eq]
    cases r <;> exact ⟨_, g, rfl, rfl, hz⟩
  | ldIndBCA => exact ⟨_, g, exec_ldIndBCA s, exec_ldIndBCA _, hz⟩
  | ldIndDEA => exact ⟨_, g, exec_ldIndDEA s, exec_ldIndDEA _, hz⟩
  | ldIndHLR r =>
    rw [exec_ldIndHLR, exec_ldIndHLR, storeIndirect_eq, storeIndirect_eq, State.reg8_with_f]
    exact ⟨_, g, rfl, rfl, hz⟩
  | ldIndHLIncA => exact ⟨_, g, exec_ldIndHLIncA s, exec_ldIndHLIncA _, hz⟩
  | ldIndHLDecA => exact ⟨_, g, exec_ldIndHLDecA s, exec_ldIndHLDecA _, hz⟩
  | ldhIndA8A n => exact ⟨_, g, exec_ldhIndA8A n s, exec_ldhIndA8A n _, hz⟩
  | ldhIndCA => exact ⟨_, g, exec_ldhIndCA s, exec_ldhIndCA _, hz⟩
  | incR r => cases r <;> exact ⟨_, _, rfl, rfl, rfl⟩
  | decR r => cases r <;> exact ⟨_, _, rfl, rfl, rfl⟩
  | incRR r => cases r <;> exact ⟨_, g, rfl, rfl, hz⟩
  | rla => exact sameButFlags_rotateReg8 hv g .a
  | rlcR r =>
    rw [exec_rlcR, exec_rlcR]
    exact sameButFlags_rotateReg8 hv g r
  | addAIndHL => exact ⟨_, _, exec_addAIndHL s, exec_addAIndHL _, rfl⟩
  | xorAA => exact ⟨_, _, rfl, rfl, rfl⟩
  | cpAn8 n => exact ⟨_, _, rfl, rfl, rfl⟩
  | cpAIndHL => exact ⟨_, _, exec_cpAIndHL s, exec_cpAIndHL _, rfl⟩
  | jrNZe8 e =>
    rw [exec_jrNZe8, exec_jrNZe8, hz]
    exact ⟨_, g, rfl, rfl, hz⟩
  | callA16 a => exact ⟨_, g, exec_callA16 a s, exec_callA16 a _, hz⟩
  | ret => exact ⟨_, g, exec_ret s, exec_ret _, hz⟩
  | pushRR p =>
    rw [exec_pushRR, exec_pushRR, pushPair_eq, pushPair_eq, State.pair_with_f]
    exact ⟨_, g, rfl, rfl, hz⟩
  | popRR p =>
    rw [exec_popRR, exec_popRR, popPair_eq, popPair_eq]
    cases p <;> exact ⟨_, g, rfl, rfl, hz⟩
  | prefixCB => exact absurd rfl hi
  | bitBR b r =>
    rw [exec_bitBR, exec_bitBR, testBit, testBit, State.reg8_with_f]
    exact ⟨_, _, rfl, rfl, rfl⟩
  | unimplementedPrimary op => exact ⟨_, g, rfl, rfl, hz⟩
  | unimplementedExtended x => exact ⟨_, g, rfl, rfl, hz⟩

/-- The same of a Step: which instruction it runs depends on no flag (R62). -/
theorem step_with_flags {s : State} {g : Flags} (hv : s.rotateVariant = .circular) (hz : g.z = s.f.z) :
    SameButFlags (step s) (step { s with f := g }) := by
  obtain ⟨i, rest, hdecode, hi, hstep⟩ := step_runs_window s
  rw [hstep, step_of_decode_window (s := { s with f := g }) hdecode]
  exact exec_with_flags i (s := afterFetch s i) hi hv hz

/-! ### F as a byte -/

/-- The bit of F that holds each flag, and the zero nibble (R16, R17). -/
theorem toByte_bits : ∀ z n h c : Bool,
    (Flags.toByte ⟨z, n, h, c⟩).getLsbD 7 = z ∧ (Flags.toByte ⟨z, n, h, c⟩).getLsbD 6 = n ∧
      (Flags.toByte ⟨z, n, h, c⟩).getLsbD 5 = h ∧ (Flags.toByte ⟨z, n, h, c⟩).getLsbD 4 = c ∧
      (Flags.toByte ⟨z, n, h, c⟩).toNat % 16 = 0 := by
  decide

end Sys2Proof.Machine

open Sys2Proof Sys2Proof.Machine

/-- Settles O10: the instruction a Step runs writes storage only through byte writes, which keep the form. -/
theorem stepKeepsStorageCanonical : Obligations.StepKeepsStorageCanonical :=
  fun _ _ hs h => step_keeps_inv hs h

/-- Settles O21: both Steps run the same instruction, and only Z is read. -/
theorem flagsOtherThanZStayInF : Obligations.FlagsOtherThanZStayInF := by
  intro s g hv hz
  obtain ⟨t, g', h, h', hz'⟩ := step_with_flags hv hz
  exact ⟨t, _, h, h', rfl, hz'⟩

/-- Settles O17, by the flag row of the instruction's table entry. -/
theorem flagsObeyTheEffectTable : Obligations.FlagsObeyTheEffectTable :=
  fun _ _ _ hi h => (permits_of_exec hi h).flags

/-- Settles O18, by the register list of the instruction's table entry. -/
theorem onlyListedRegistersAreWritten : Obligations.OnlyListedRegistersAreWritten :=
  fun _ _ _ hi h => (permits_of_exec hi h).regs

/-- Settles O19, by the address list of the instruction's table entry. -/
theorem onlyListedAddressesAreStoredTo : Obligations.OnlyListedAddressesAreStoredTo :=
  fun _ _ _ hi h => (permits_of_exec hi h).stores

/-- Settles O20, by the PC and SP columns of the instruction's table entry. -/
theorem onlyListedInstructionsMovePCOrSP : Obligations.OnlyListedInstructionsMovePCOrSP := by
  intro i s t hi h
  have permitted := permits_of_exec hi h
  exact ⟨permitted.pc, permitted.sp⟩

/-- Settles O7: the fetch takes exactly the bytes the decoder reads. -/
theorem stepRunsDecodedInstruction : Obligations.StepRunsDecodedInstruction :=
  fun _ _ _ h => step_of_decode_window h

/-- Settles O11: nothing is listed at reset. -/
theorem resetStorageIsCanonical : Obligations.ResetStorageIsCanonical :=
  ⟨.nil, nofun⟩

/-- Settles O12, by the register and by the pair. -/
theorem resetLeavesEveryRegisterZero : Obligations.ResetLeavesEveryRegisterZero := by
  refine ⟨fun r => ?_, by decide, rfl, rfl, rfl, fun p => ?_⟩
  · cases r <;> rfl
  · cases p <;> decide

/-- Settles O13: an unlisted byte reads 0x00, and a read through the regions is a read of the flat storage. -/
theorem resetLeavesEveryByteZero : Obligations.ResetLeavesEveryByteZero :=
  ⟨fun _ => rfl, fun x k => memRead_eq x State.reset k⟩

/-- Settles O22, by the value of each flag. -/
theorem fHasFourFlagsAndAZeroNibble : Obligations.FHasFourFlagsAndAZeroNibble :=
  fun s => toByte_bits s.f.z s.f.n s.f.h s.f.c

/-- Settles O23: a pair is its halves appended, and a written value splits into them. -/
theorem pairsAreViewsOfTheirHalves : Obligations.PairsAreViewsOfTheirHalves :=
  fun s v b =>
    ⟨toNat_highLow s.b s.c, toNat_highLow s.d s.e, toNat_highLow s.h s.l,
      fun p => ⟨State.pair_setPair_self s p v, reg8Unchanged_setPair s p v⟩, toNat_highLow b s.l, toNat_highLow s.h b⟩
end

section
/-! Storage (20_memory.md): the twelve regions share no address, what one byte write and one bulk load leave at every
address, and a store to the byte the next Step fetches. -/

namespace Sys2Proof.Machine

/-- The ranges of two regions have no address in common (R31, R32). -/
theorem region_ranges_disjoint (q r : Region) : q ≠ r → q.first + q.size ≤ r.first ∨ r.first + r.size ≤ q.first := by
  cases q <;> cases r <;> decide

theorem region_unique {q r : Region} {n : Nat} (hq : q.first ≤ n ∧ n < q.first + q.size)
    (hr : r.first ≤ n ∧ n < r.first + r.size) : q = r := by
  by_contra hne
  have := region_ranges_disjoint q r hne
  omega

/-- A byte write leaves the bytes at all other addresses as they were (R34). -/
theorem memoryUnchanged_write (addr : Addr) (v : Byte) (s : State) :
    MemoryUnchanged [addr] s { s with mem := s.mem.write addr.toNat v } :=
  (permits_write (regs := []) addr v).stores

theorem byteAt_of_memWrite_of_ne {addr x : Addr} {v : Byte} {s t : State} (hne : x ≠ addr)
    (h : memWrite addr v s .next = .next t) : t.byteAt x = s.byteAt x := by
  cases (memWrite_eq addr v s .next).symm.trans h
  exact memoryUnchanged_write addr v s x (mt List.mem_singleton.mp hne)

/-- The two addresses differ for every `k`, also modulo 2^16: they are 0x2000 apart (R37). -/
theorem workRam_ne_echoRam (k : Nat) : BitVec.ofNat 16 (0xC000 + k) ≠ BitVec.ofNat 16 (0xE000 + k) := by
  intro heq
  have := congrArg BitVec.toNat heq
  simp only [BitVec.toNat_ofNat] at this
  omega

/-- What a bulk load leaves at every address (R50). -/
theorem byteAt_writeAll_romBank0 (bytes : List Byte) (s : State) (x : Addr) :
    ({ s with mem := s.mem.writeAll Region.romBank0.first bytes } : State).byteAt x =
      if x.toNat < bytes.length then bytes.getD x.toNat 0 else s.byteAt x := by
  simp only [State.byteAt, Memory.read_writeAll_getD, Region.first, Nat.zero_le, true_and, Nat.zero_add, Nat.sub_zero]

/-- The opcode of a one-byte instruction other than the prefix has a format without operand bytes (R63). -/
theorem primaryEntry_of_decode_singleton {op : Byte} {i : Instr} (h : decode [op] = .ok (i, [])) (hi : i ≠ .prefixCB) :
    primaryEntry op = .op i := by
  rw [decode] at h
  cases hop : primaryEntry op with
  | op j =>
    rw [hop] at h
    cases h
    rfl
  | opN8 mk =>
    rw [hop] at h
    cases h
  | opN16 mk =>
    rw [hop] at h
    cases h
  | pre =>
    rw [hop] at h
    cases h
    exact absurd rfl hi

/-- A Step over the opcode of a one-byte instruction executes it, whatever the bytes after it are (R61). -/
theorem step_of_decode_singleton {s : State} {i : Instr} (h : decode [s.byteAt s.pc] = .ok (i, [])) (hi : i ≠ .prefixCB) :
    step s = exec i { s with pc := s.pc + 1, signal := none } := by
  have hop : primaryEntry (s.clearSignal.byteAt s.clearSignal.pc) = .op i := primaryEntry_of_decode_singleton h hi
  rw [step, fetchInstr_eq, hop]
  rfl

/-- The state after a Step over `LD [HL],A` (R105). -/
def afterLdIndHLA (s : State) : State :=
  { s with pc := s.pc + 1, signal := none, mem := s.mem.write (s.indirect .hl).toNat s.a }

theorem byteAt_indirect_afterLdIndHLA (s : State) : (afterLdIndHLA s).byteAt (s.indirect .hl) = s.a :=
  Memory.read_write_self s.mem (s.indirect .hl).toNat s.a

theorem step_ldIndHLA {s : State} (h : s.byteAt s.pc = 0x77) : step s = .next (afterLdIndHLA s) := by
  have hdecode : decode [s.byteAt s.pc] = .ok (.ldIndHLA, []) := by
    rw [h]
    rfl
  rw [step_of_decode_singleton hdecode nofun]
  exact storeIndirect_eq .hl .a { s with pc := s.pc + 1, signal := none }

end Sys2Proof.Machine

open Sys2Proof Sys2Proof.Machine

/-- Settles O16: the next Step fetches the stored byte, which decodes alone. -/
theorem storeIsSeenByTheNextFetch : Obligations.StoreIsSeenByTheNextFetch := by
  intro s i hop hhl hdecode hi
  have hstored : (afterLdIndHLA s).byteAt (s.pc + 1) = s.a := hhl ▸ byteAt_indirect_afterLdIndHLA s
  refine ⟨afterLdIndHLA s, step_ldIndHLA hop, rfl, hstored, ?_⟩
  rw [step_of_decode_singleton (hstored.symm ▸ hdecode) hi, ← add_one_add_one s.pc]
  rfl

/-- Settles O24: some region claims the address, and the ranges are disjoint. -/
theorem everyAddressHasOneRegion : Obligations.EveryAddressHasOneRegion := by
  intro addr
  obtain ⟨r, hr, hle, hlt⟩ := region_claims addr
  exact ⟨r, hr, hle, hlt, rfl, fun q hqle hqlt => region_unique ⟨hqle, hqlt⟩ ⟨hle, hlt⟩⟩

/-- Settles O25: a write through the regions is one write of the flat storage, and a read is one read of it. -/
theorem readAfterWriteAtEveryAddress : Obligations.ReadAfterWriteAtEveryAddress :=
  fun addr v s =>
    ⟨⟨_, memWrite_eq addr v s .next, Memory.read_write_self s.mem addr.toNat v, memoryUnchanged_write addr v s, rfl,
      rfl, rfl⟩, memRead_eq addr s⟩

/-- Settles O26: the two addresses differ, and a write changes one byte. -/
theorem echoRamMirrorsNothing : Obligations.EchoRamMirrorsNothing := by
  intro k v s t _
  have hne := workRam_ne_echoRam k
  exact ⟨byteAt_of_memWrite_of_ne hne.symm, byteAt_of_memWrite_of_ne hne⟩

/-- Settles O27, by whether the bytes fit region 0. -/
theorem bulkLoadFillsRegionZeroOrFails : Obligations.BulkLoadFillsRegionZeroOrFails :=
  fun bytes s =>
    ⟨fun hfits => ⟨_, bulkLoad_of_le hfits s, rfl, byteAt_writeAll_romBank0 bytes s⟩, fun hlong => bulkLoad_of_gt hlong s⟩
end

section
/-! Encoding (30_encoding.md): decoding and encoding undo each other, the values each fallback takes, the fetches, and the
Step over the bytes of an instruction. -/

namespace Sys2Proof

/-! ### What decodes is well-formed, and its encoding is the bytes consumed -/

/-- The instruction of an entry, given the operand byte or word its format asks for (R63). -/
def PrimaryEntry.instr (n : Byte) (v : Addr) : PrimaryEntry → Instr
  | .op i => i
  | .opN8 mk => mk n
  | .opN16 mk => mk v
  | .pre => .prefixCB

/-- The operand bytes of that instruction, the low byte of a word first (R64). -/
def PrimaryEntry.operands (n : Byte) (v : Addr) : PrimaryEntry → List Byte
  | .op _ => []
  | .opN8 _ => [n]
  | .opN16 _ => [immLow v, immHigh v]
  | .pre => []

theorem primaryRows_wellFormed (n : Byte) (v : Addr) : ∀ row ∈ primaryRows, (row.2.instr n v).wellFormed = true :=
  List.all_eq_true.mp rfl

theorem primaryRows_encode (n : Byte) (v : Addr) :
    ∀ row ∈ primaryRows, encode (row.2.instr n v) = row.1 :: row.2.operands n v :=
  List.map_inj_left.mp rfl

/-- Every primary opcode value selects well-formed instructions that encode back to it and their operands (R66, R67). -/
theorem encode_primaryEntry (op n : Byte) (v : Addr) :
    ((primaryEntry op).instr n v).wellFormed = true ∧
      encode ((primaryEntry op).instr n v) = op :: (primaryEntry op).operands n v := by
  cases h : primaryRows.lookup op with
  | none =>
    have hop := (primary_lookup_none_iff op).mp h
    rw [primaryEntry_of_unimplemented hop]
    exact ⟨hop, rfl⟩
  | some e =>
    have hop : primaryEntry op = e := by simp only [primaryEntry, h]
    have hrow := mem_of_lookup_eq_some h
    rw [hop]
    exact ⟨primaryRows_wellFormed n v _ hrow, primaryRows_encode n v _ hrow⟩

/-- The value of the prefix is 0xCB alone (R66). -/
theorem eq_of_primaryEntry_eq_pre {op : Byte} (h : primaryEntry op = .pre) : op = 0xCB := by
  obtain ⟨-, henc⟩ := encode_primaryEntry op 0 0
  rw [h] at henc
  exact (List.head_eq_of_cons_eq henc).symm

theorem extendedRows_encode : ∀ row ∈ extendedRows, row.2.wellFormed = true ∧ encode row.2 = [0xCB, row.1] := by
  decide

/-- Every extended opcode value selects a well-formed instruction that encodes back to the prefix and it (R68, R69). -/
theorem encode_decodeExtended (x : Byte) :
    (decodeExtended x).wellFormed = true ∧ encode (decodeExtended x) = [0xCB, x] := by
  cases h : extendedRows.lookup x with
  | none =>
    have hx := (extended_lookup_none_iff x).mp h
    rw [decodeExtended_of_unimplemented hx]
    exact ⟨hx, rfl⟩
  | some i =>
    have hi : decodeExtended x = i := by simp only [decodeExtended, h]
    rw [hi]
    exact extendedRows_encode _ (mem_of_lookup_eq_some h)

/-- What the decoder can answer: the instruction of a primary opcode with its operands, or an extended instruction after
the prefix (R62, R63). -/
theorem decode_eq_ok_cases {bytes rest : List Byte} {i : Instr} (h : decode bytes = .ok (i, rest)) :
    (∃ op n v, i = (primaryEntry op).instr n v ∧ bytes = op :: (primaryEntry op).operands n v ++ rest) ∨
      ∃ x, i = decodeExtended x ∧ bytes = 0xCB :: x :: rest := by
  cases bytes with
  | nil => cases h
  | cons op tail =>
    simp only [decode] at h
    cases hop : primaryEntry op with
    | op j =>
      rw [hop] at h
      cases h
      exact .inl ⟨op, 0, 0, by rw [hop]; rfl, by rw [hop]; rfl⟩
    | opN8 mk =>
      rw [hop] at h
      cases tail with
      | nil => cases h
      | cons n tail =>
        cases h
        exact .inl ⟨op, n, 0, by rw [hop]; rfl, by rw [hop]; rfl⟩
    | opN16 mk =>
      rw [hop] at h
      match tail with
      | [] | [_] => cases h
      | lo :: hi :: tail =>
        cases h
        refine .inl ⟨op, 0, word16 lo hi, by rw [hop]; rfl, ?_⟩
        rw [hop, PrimaryEntry.operands, immLow_word16, immHigh_word16]
        rfl
    | pre =>
      rw [hop] at h
      obtain rfl := eq_of_primaryEntry_eq_pre hop
      cases tail with
      | nil =>
        cases h
        exact .inl ⟨0xCB, 0, 0, rfl, rfl⟩
      | cons x tail =>
        cases h
        exact .inr ⟨x, rfl, rfl⟩

/-- Whatever decodes is well-formed, and its encoding is the bytes consumed. -/
theorem encode_of_decode {bytes rest : List Byte} {i : Instr} (h : decode bytes = .ok (i, rest)) :
    i.wellFormed = true ∧ bytes = encode i ++ rest := by
  obtain ⟨op, n, v, rfl, rfl⟩ | ⟨x, rfl, rfl⟩ := decode_eq_ok_cases h
  · obtain ⟨hwf, henc⟩ := encode_primaryEntry op n v
    exact ⟨hwf, by rw [henc]⟩
  · obtain ⟨hwf, henc⟩ := encode_decodeExtended x
    exact ⟨hwf, by rw [henc]; rfl⟩

/-- The encoding has as many bytes as the format says (R63, R70). -/
theorem length_encode (i : Instr) : (encode i).length = i.length := by
  cases i <;> rfl

/-! ### Decoding the encoding gives the instruction back -/

/-- A primary opcode with an operand word decodes to the word its two bytes hold, low byte first (R64). -/
theorem decode_opN16 {op : Byte} {mk : Addr → Instr} (h : primaryEntry op = .opN16 mk) (v : Addr) (rest : List Byte) :
    decode (op :: immLow v :: immHigh v :: rest) = .ok (mk v, rest) := by
  simp only [decode, h, word16_imm]

theorem decode_unimplementedPrimary {op : Byte} (h : unimplementedPrimaryValues.contains op = true) (rest : List Byte) :
    decode (op :: rest) = .ok (.unimplementedPrimary op, rest) := by
  simp only [decode, primaryEntry_of_unimplemented h]

/-- The byte after `0xCB` is an extended opcode, whatever it is (R71). -/
theorem decode_prefixed (x : Byte) (rest : List Byte) : decode (0xCB :: x :: rest) = .ok (decodeExtended x, rest) := rfl

theorem decode_unimplementedExtended {x : Byte} (h : unimplementedExtendedValue x = true) (rest : List Byte) :
    decode (0xCB :: x :: rest) = .ok (.unimplementedExtended x, rest) := by
  rw [decode_prefixed, decodeExtended_of_unimplemented h]

/-- The opcode maps select each instruction by its own first byte or two, by family; after the bare prefix nothing may
follow (R71). -/
theorem decode_encode_append (i : Instr) (rest : List Byte) (hwf : i.wellFormed = true) (hpre : i = .prefixCB → rest = []) :
    decode (encode i ++ rest) = .ok (i, rest) := by
  induction i using Instr.byFamily with
  | ldRN8 r n => cases r <;> rfl
  | ldRRN16 r v => cases r <;> exact decode_opN16 rfl v rest
  | ldRIndHL r => cases r <;> rfl
  | ldIndHLR r => cases r <;> rfl
  | incR r => cases r <;> rfl
  | decR r => cases r <;> rfl
  | incRR r => cases r <;> rfl
  | rlcR r => cases r <;> rfl
  | pushRR p => cases p <;> rfl
  | popRR p => cases p <;> rfl
  | bitBR b r => fin_cases b <;> cases r <;> rfl
  | callA16 t => exact decode_opN16 rfl t rest
  | prefixCB =>
    rw [hpre rfl]
    rfl
  | unimplementedPrimary op => exact decode_unimplementedPrimary hwf rest
  | unimplementedExtended x => exact decode_unimplementedExtended hwf rest
  | ldAIndBC | ldAIndDE | ldIndBCA | ldIndDEA | ldIndHLIncA | ldIndHLDecA | ldhIndA8A | ldhIndCA | rla | addAIndHL | xorAA
  | cpAn8 | cpAIndHL | jrNZe8 | ret => rfl

/-! ### The values without a row -/

/-- A byte decodes to the primary fallback exactly when it is in the list of R67. -/
theorem decode_unimplementedPrimary_iff (op : Byte) (rest : List Byte) :
    decode (op :: rest) = .ok (.unimplementedPrimary op, rest) ↔ op ∈ unimplementedPrimaryValues := by
  rw [← List.contains_iff_mem]
  exact ⟨fun h => (encode_of_decode h).1, fun h => decode_unimplementedPrimary h rest⟩

/-- A byte after the prefix decodes to the extended fallback exactly when R69 describes it. -/
theorem decode_unimplementedExtended_iff (x : Byte) (rest : List Byte) :
    decode (0xCB :: x :: rest) = .ok (.unimplementedExtended x, rest) ↔ unimplementedExtendedValue x = true :=
  ⟨fun h => (encode_of_decode h).1, fun h => decode_unimplementedExtended h rest⟩

/-- The list of R67 is strictly rising. -/
theorem unimplementedPrimaryValues_isChain : unimplementedPrimaryValues.IsChain (· < ·) := by decide +kernel

theorem unimplementedPrimaryValues_nodup : unimplementedPrimaryValues.Nodup :=
  (List.isChain_iff_pairwise.mp unimplementedPrimaryValues_isChain).imp BitVec.ne_of_lt

theorem unimplementedExtendedValues_length :
    ((List.range 256).filter fun n => unimplementedExtendedValue (BitVec.ofNat 8 n)).length = 193 := by
  decide +kernel

end Sys2Proof

namespace Sys2Proof.Machine

/-! ### Fetches -/

/-- The `n` bytes at PC, PC + 1, and so on modulo 2^16 (R60). -/
def bytesAtPC (s : State) (n : Nat) : List Byte := (List.range n).map fun k => s.byteAt (s.pc + BitVec.ofNat 16 k)

theorem add_one_add_ofNat (x : Addr) (n : Nat) : x + 1 + BitVec.ofNat 16 n = x + BitVec.ofNat 16 (n + 1) := by
  rw [BitVec.add_assoc, Nat.add_comm n 1, BitVec.ofNat_add]
  rfl

theorem add_ofNat_zero (x : Addr) : x + BitVec.ofNat 16 0 = x := BitVec.add_zero x

theorem bytesAtPC_succ (s : State) (n : Nat) :
    bytesAtPC s (n + 1) = s.byteAt s.pc :: bytesAtPC { s with pc := s.pc + 1 } n := by
  simp only [bytesAtPC, List.range_succ_eq_map, List.map_cons, List.map_map, add_ofNat_zero,
    Function.comp_def, add_one_add_ofNat, State.byteAt_with_pc]

theorem bytesAtPC_three (s : State) : bytesAtPC s 3 = s.window := by
  simp only [bytesAtPC_succ, add_one_add_one]
  rfl

/-- `n` fetches hand on the `n` bytes at PC and advance PC by `n`, by induction on `n` (R60). -/
theorem fetchMany_eq (n : Nat) (s : State) (k : List Byte → State → Out) :
    fetchMany n s k = k (bytesAtPC s n) { s with pc := s.pc + BitVec.ofNat 16 n } := by
  induction n generalizing s k with
  | zero => rw [add_ofNat_zero]; rfl
  | succ n ih => rw [fetchMany, fetch8_eq, ih, bytesAtPC_succ, add_one_add_ofNat]

/-! ### A Step over the bytes of an instruction -/

/-- Bytes that lie at PC are the head of the window. -/
theorem window_eq_append {s : State} {bytes : List Byte} (hlen : bytes.length ≤ 3)
    (h : ∀ k, k < bytes.length → s.byteAt (s.pc + BitVec.ofNat 16 k) = bytes.getD k 0) :
    s.window = bytes ++ s.window.drop bytes.length := by
  have htake : s.window.take bytes.length = bytes := by
    rw [← bytesAtPC_three, bytesAtPC, ← List.map_take, List.take_range, Nat.min_eq_left hlen]
    refine List.ext_getElem (by simp) fun k hk hk' => ?_
    simpa [hk'] using h k hk'
  calc s.window = s.window.take bytes.length ++ s.window.drop bytes.length := (List.take_append_drop _ _).symm
    _ = bytes ++ s.window.drop bytes.length := by rw [htake]

theorem length_encode_le (i : Instr) : (encode i).length ≤ 3 := by
  cases i <;> exact Nat.le_of_ble_eq_true rfl

/-- A Step over the encoding of an instruction executes it: what decodes is what was encoded (R61 to R64). -/
theorem runsAt_encode {i : Instr} (hwf : i.wellFormed = true) (hi : i ≠ .prefixCB) : RunsAt i (encode i) := by
  intro s hbytes
  have hdecode := decode_encode_append i (s.window.drop (encode i).length) hwf fun h => absurd h hi
  rw [← window_eq_append (length_encode_le i) hbytes] at hdecode
  rw [step_of_decode_window hdecode, afterFetch, length_encode]

theorem runsAt_of_encode {i : Instr} {bytes : List Byte} (henc : encode i = bytes) (hwf : i.wellFormed = true)
    (hi : i ≠ .prefixCB) : RunsAt i bytes :=
  henc ▸ runsAt_encode hwf hi

/-- A Step over `0xCB` executes the prefix, which fetches the byte after it itself (R170; log 8). -/
theorem runsAt_prefixCB : RunsAt .prefixCB [0xCB] := by
  intro s hbytes
  have hop : s.byteAt s.pc = 0xCB := by simpa using hbytes 0 (by decide)
  rw [step, fetchInstr_eq, State.clearSignal_byteAt, State.clearSignal_pc, hop]
  rfl

/-- The prefix runs the extended instruction the byte at PC selects (R170). -/
theorem exec_prefixCB_eq_exec (s : State) :
    exec .prefixCB s = exec (decodeExtended (s.byteAt s.pc)) { s with pc := s.pc + 1 } :=
  (exec_prefixCB s).trans (executeExtended_eq_exec _ _)

/-! ### A Step over an unimplemented opcode -/

/-- A Step over a value of R67 signals it and moves PC past it (R201). -/
theorem step_unimplementedPrimary {s : State} {op : Byte} (hop : op ∈ unimplementedPrimaryValues)
    (hbyte : s.byteAt s.pc = op) : step s = .next { s with pc := s.pc + 1, signal := some ⟨.primary, op⟩ } := by
  have hwf : (Instr.unimplementedPrimary op).wellFormed = true := List.contains_iff_mem.mpr hop
  have hwindow : decode s.window = .ok (.unimplementedPrimary op, [s.byteAt (s.pc + 1), s.byteAt (s.pc + 2)]) := by
    rw [State.window, hbyte, decode_unimplementedPrimary hwf]
  exact step_of_decode_window hwindow

/-- A Step over the prefix and a value of R69 signals the value and moves PC past both (R202). -/
theorem step_unimplementedExtended {s : State} {x : Byte} (hx : unimplementedExtendedValue x = true)
    (hprefix : s.byteAt s.pc = 0xCB) (hbyte : s.byteAt (s.pc + 1) = x) :
    step s = .next { s with pc := s.pc + 2, signal := some ⟨.extended, x⟩ } := by
  have hwindow : decode s.window = .ok (.unimplementedExtended x, [s.byteAt (s.pc + 2)]) := by
    rw [State.window, hprefix, hbyte, decode_unimplementedExtended hx]
  exact step_of_decode_window hwindow

/-- Over zero storage every Step signals 0x00 and leaves storage as it was, so the next Step does the same (R244). -/
theorem drive_over_zero_storage (n : Nat) (s : State) (hzero : ∀ x : Addr, s.byteAt x = 0x00) :
    ∃ r, drive .continueRun n s = .next r ∧ r.final.pc = s.pc + BitVec.ofNat 16 n ∧
      r.signals = List.replicate n (some ⟨.primary, 0x00⟩) := by
  induction n generalizing s with
  | zero => exact ⟨_, drive_zero _ s, (BitVec.add_zero s.pc).symm, rfl⟩
  | succ n ih =>
    have hstep := step_unimplementedPrimary (by decide) (hzero s.pc)
    obtain ⟨r, hr, hpc, hsignals⟩ := ih { s with pc := s.pc + 1, signal := some ⟨.primary, 0x00⟩ } hzero
    refine ⟨_, drive_goes_on hstep nofun hr, hpc.trans (add_one_add_ofNat s.pc n), ?_⟩
    rw [hsignals]
    rfl

/-! ### Loads of an immediate, increments and decrements, the push -/

/-- What the write of a 16-bit operand leaves as it was (R101, R122). -/
theorem setReg16_frame (s : State) (r : Reg16) (v : Addr) :
    Reg8Unchanged r.halves s (s.setReg16 r v) ∧ (r ≠ .sp → (s.setReg16 r v).sp = s.sp) ∧ (s.setReg16 r v).f = s.f ∧
      (s.setReg16 r v).pc = s.pc ∧ MemoryUnchanged [] s (s.setReg16 r v) ∧ OutputsUnchanged s (s.setReg16 r v) :=
  have frame := permits_setReg16 (s := s) (stores := []) r v
  ⟨frame.regs, State.setReg16_sp s r v, State.setReg16_f s r v, frame.pc rfl, frame.stores,
    State.setReg16_rotateVariant s r v, State.setReg16_signal s r v⟩

/-- What the write of a register and the flags leaves as it was (R120, R121). -/
theorem setReg8_flags_frame (s : State) (r : Reg8) (v : Byte) (f : Flags) :
    Reg8Unchanged [r] s { s.setReg8 r v with f := f } ∧ (s.setReg8 r v).sp = s.sp ∧ (s.setReg8 r v).pc = s.pc ∧
      MemoryUnchanged [] s { s.setReg8 r v with f := f } ∧ OutputsUnchanged s { s.setReg8 r v with f := f } :=
  have frame : TableEntry.Permits ⟨⟨.computed, .computed, .computed, .computed⟩, [r], [], false, false⟩ s
      { s.setReg8 r v with f := f } := permits_setReg8_flags v ⟨trivial, trivial, trivial, trivial⟩
  ⟨frame.regs, frame.sp rfl, frame.pc rfl, frame.stores, State.setReg8_rotateVariant s r v, State.setReg8_signal s r v⟩

/-- The sum and the two flags of `Inc8` (R123). -/
theorem inc8_spec (v : Byte) :
    (inc8 v).res.toNat = (v.toNat + 1) % 256 ∧ ((inc8 v).z = true ↔ v = 0xFF) ∧
      ((inc8 v).h = true ↔ v.toNat % 16 = 15) := by
  refine ⟨BitVec.toNat_add v 1, ?_, beq_iff_eq⟩
  rw [inc8, beq_iff_eq]
  constructor <;> intro h <;> bv_omega

/-- The difference and the two flags of `Dec8` (R123). -/
theorem dec8_spec (v : Byte) :
    (dec8 v).res.toNat = (v.toNat + 255) % 256 ∧ ((dec8 v).z = true ↔ v = 0x01) ∧
      ((dec8 v).h = true ↔ v.toNat % 16 = 0) := by
  refine ⟨?_, ?_, beq_iff_eq⟩
  · rw [dec8, BitVec.toNat_sub, Nat.add_comm]
    rfl
  · rw [dec8, beq_iff_eq]
    constructor <;> intro h <;> bv_omega

/-- The bytes of `LD r,n8`, `INC r` and `DEC r` have the register code in bits 5 to 3 (R65). -/
theorem runsAt_ldRN8 (r : Reg8) (n : Byte) : RunsAt (.ldRN8 r n) [inFieldY 0b00_000_110 r.code, n] := by
  cases r <;> exact runsAt_of_encode rfl rfl nofun
theorem runsAt_incR (r : Reg8) : RunsAt (.incR r) [inFieldY 0b00_000_100 r.code] := by
  cases r <;> exact runsAt_of_encode rfl rfl nofun
theorem runsAt_decR (r : Reg8) : RunsAt (.decR r) [inFieldY 0b00_000_101 r.code] := by
  cases r <;> exact runsAt_of_encode rfl rfl nofun

/-- The bytes of `LD rr,n16`, `INC rr` and `PUSH rr` have the register code in bits 5 and 4 (R65). -/
theorem runsAt_ldRRN16 (r : Reg16) (lo hi : Byte) :
    RunsAt (.ldRRN16 r (word16 lo hi)) [inFieldP 0b00_00_0001 r.code, lo, hi] := by
  have henc : encode (.ldRRN16 r (word16 lo hi)) =
      [inFieldP 0b00_00_0001 r.code, immLow (word16 lo hi), immHigh (word16 lo hi)] := by
    cases r <;> rfl
  rw [immLow_word16, immHigh_word16] at henc
  cases r <;> exact runsAt_of_encode henc rfl nofun
theorem runsAt_incRR (r : Reg16) : RunsAt (.incRR r) [inFieldP 0b00_00_0011 r.code] := by
  cases r <;> exact runsAt_of_encode rfl rfl nofun
theorem runsAt_pushRR (p : Pair) : RunsAt (.pushRR p) [inFieldP 0b11_00_0101 p.code] := by
  cases p <;> exact runsAt_of_encode rfl rfl nofun

/-- SP moves down by two, so the two bytes of a push lie at different addresses (R160). -/
theorem sub_one_ne_sub_two (x : Addr) : x - 1 ≠ x - 2 := by
  bv_omega

/-- The two bytes a push stores (R160; D9). -/
theorem read_pushedMem_stored (s : State) (v : Addr) :
    ((pushedMem s v).read (s.sp - 1).toNat).toNat = v.toNat / 256 ∧
      ((pushedMem s v).read (s.sp - 2).toNat).toNat = v.toNat % 256 := by
  rw [read_pushedMem, read_pushedMem, if_neg (sub_one_ne_sub_two s.sp), if_pos rfl, if_pos rfl]
  exact ⟨toNat_highByte v, toNat_lowByte v⟩

end Sys2Proof.Machine

open Sys2Proof Sys2Proof.Machine

/-- Settles O2, by instruction family. -/
theorem decodeOfEncodeIsTheInstruction : Obligations.DecodeOfEncodeIsTheInstruction :=
  decode_encode_append

/-- Settles O3, by the format of the opcode byte. -/
theorem encodeOfDecodeIsTheBytes : Obligations.EncodeOfDecodeIsTheBytes := by
  intro bytes rest i h
  obtain ⟨hwf, hbytes⟩ := encode_of_decode h
  exact ⟨hwf, hbytes, length_encode i⟩

/-- Settles O9: every fetch and every meaning completes. -/
theorem everyStepCompletes : Obligations.EveryStepCompletes := by
  intro s
  obtain ⟨t, ht, -⟩ := step_completes s
  exact ⟨t, ht⟩

/-- Settles O4: what decodes to a fallback is well-formed, so its byte is one the fallback takes. -/
theorem unimplementedValuesFallBack : Obligations.UnimplementedValuesFallBack :=
  ⟨rfl, unimplementedPrimaryValues_nodup, decode_unimplementedPrimary_iff, decode_unimplementedExtended_iff,
    unimplementedExtendedValues_length⟩

/-- Settles O6, by induction on the number of fetches. -/
theorem fetchesReadAtPCAndAdvanceIt : Obligations.FetchesReadAtPCAndAdvanceIt :=
  fetchMany_eq

/-- Settles O8: the extended dispatch is the meaning of the extended instruction, and every meaning completes. -/
theorem prefixRunsTheExtendedInstruction : Obligations.PrefixRunsTheExtendedInstruction := by
  refine ⟨runsAt_prefixCB, fun s => ?_⟩
  obtain ⟨t, ht, -⟩ := exec_completes .prefixCB s
  exact ⟨t, ht, exec_prefixCB_eq_exec s⟩

/-- Settles O52, by induction on the number of Steps. -/
theorem emptyStorageSignalsEveryStep : Obligations.EmptyStorageSignalsEveryStep :=
  drive_over_zero_storage

/-- Settles O1, by the rows of the opcode maps. -/
theorem wordsOfTheOpcodeMapDecode : Obligations.WordsOfTheOpcodeMapDecode :=
  ⟨rfl, rfl, rfl, rfl, rfl, rfl, rfl, rfl, rfl, rfl, rfl, rfl, rfl, rfl, rfl, rfl⟩

/-- Settles O5: an extended opcode decodes to an instruction of two bytes, and the prefix is one byte. -/
theorem prefixTakesExactlyTheNextByte : Obligations.PrefixTakesExactlyTheNextByte := by
  intro x rest
  have hlen := length_decodeExtended x
  exact ⟨decode_prefixed x rest, ne_prefixCB_of_length (by rw [hlen]; decide), rfl⟩

/-- Settles O51: the window decodes to the fallback, whose meaning sets the signal alone. -/
theorem unimplementedSignalsAndGoesOn : Obligations.UnimplementedSignalsAndGoesOn :=
  ⟨fun _ _ => ⟨rfl, step_unimplementedPrimary⟩, fun _ _ => ⟨rfl, step_unimplementedExtended⟩⟩

/-- Settles O29, by the write of one register. -/
theorem loadImmediate8 : Obligations.LoadImmediate8 := by
  intro r n s
  have frame : TableEntry.Permits ⟨keptRow, [r], [], false, false⟩ s (s.setReg8 r n) := permits_setReg8 n
  exact ⟨runsAt_ldRN8 r n, _, exec_ldRN8 r n s, State.reg8_setReg8_self s r n, frame.regs, State.setReg8_f s r n,
    frame.sp rfl, frame.pc rfl, frame.stores, State.setReg8_rotateVariant s r n, State.setReg8_signal s r n⟩

/-- Settles O30, by the write of one 16-bit operand. -/
theorem loadImmediate16 : Obligations.LoadImmediate16 := by
  intro r lo hi s
  refine ⟨runsAt_ldRRN16 r lo hi, _, exec_ldRRN16 r (word16 lo hi) s, ?_, setReg16_frame s r (word16 lo hi)⟩
  rw [State.reg16_setReg16_self]
  exact toNat_highLow hi lo

/-- Settles O35, by the sum and the flags of `Inc8`. -/
theorem incrementRegister : Obligations.IncrementRegister := by
  intro r s
  obtain ⟨hres, hz, hh⟩ := inc8_spec (s.reg8 r)
  refine ⟨runsAt_incR r, _, exec_incR r s, ?_, hz, rfl, hh, rfl, setReg8_flags_frame s r _ _⟩
  rw [State.reg8_with_f, State.reg8_setReg8_self, hres]

/-- Settles O36, by the difference and the flags of `Dec8`. -/
theorem decrementRegister : Obligations.DecrementRegister := by
  intro r s
  obtain ⟨hres, hz, hh⟩ := dec8_spec (s.reg8 r)
  refine ⟨runsAt_decR r, _, exec_decR r s, ?_, hz, rfl, hh, rfl, setReg8_flags_frame s r _ _⟩
  rw [State.reg8_with_f, State.reg8_setReg8_self, hres]

/-- Settles O37, by the write of one 16-bit operand. -/
theorem incrementPair : Obligations.IncrementPair := by
  intro r s
  refine ⟨runsAt_incRR r, _, exec_incRR r s, ?_, setReg16_frame s r (s.reg16 r + 1)⟩
  rw [State.reg16_setReg16_self]
  exact BitVec.toNat_add (s.reg16 r) 1

/-- Settles O48, by the two bytes a push stores. -/
theorem pushPair : Obligations.PushPair := by
  intro p s
  obtain ⟨hhigh, hlow⟩ := read_pushedMem_stored s (s.pair p)
  have frame : TableEntry.Permits ⟨keptRow, [], [s.sp - 1, s.sp - 2], false, true⟩ s
      { s with sp := s.sp - 1 - 1, mem := pushedMem s (s.pair p) } := permits_push _ fun _ => rfl
  exact ⟨runsAt_pushRR p, _, (exec_pushRR p s).trans (pushPair_eq p s), sub_one_sub_one s.sp, hhigh, hlow, frame.stores,
    frame.regs, rfl, rfl, rfl, rfl⟩
end

section
/-! Loads and stores through a pair and the stores to page 0xFF00 (40_loads.md): the opcode bytes, what each of the four
shared operations does, and what it leaves unchanged. -/

namespace Sys2Proof.Machine

/-! ### The bytes of a load or store through a pair -/

/-- The bytes of `LD r,[HL]` have the register code in bits 5 to 3, those of `LD [HL],r` in bits 2 to 0 (R65). -/
theorem runsAt_ldRIndHL (r : Reg8) : RunsAt (.ldRIndHL r) [inFieldY 0b01_000_110 r.code] := by
  cases r <;> exact runsAt_of_encode rfl rfl nofun
theorem runsAt_ldIndHLR (r : Reg8) : RunsAt (.ldIndHLR r) [inFieldZ 0b01110_000 r.code] := by
  cases r <;> exact runsAt_of_encode rfl rfl nofun

/-- `highPage` joins the page number and the offset, which share no bit (R110). -/
theorem toNat_highPage (n : Byte) : (highPage n).toNat = 0xFF00 + n.toNat := by
  have hoffset : (n.zeroExtend 16).toNat = n.toNat := BitVec.toNat_setWidth_of_le (by decide)
  calc (highPage n).toNat = 2 ^ 8 * 0xFF ||| n.toNat := by
        rw [highPage, BitVec.toNat_or, hoffset]
        rfl
    _ = 0xFF00 + n.toNat := (Nat.two_pow_add_eq_or_of_lt n.isLt 0xFF).symm

/-! ### What a load or store does, and what it leaves unchanged -/

/-- A load through a pair reads at the pair's old value and changes the one register (R102 to R104). -/
theorem loadIndirect_spec (r : Reg8) (p : Pair) (s : State) :
    ∃ t, loadIndirect r p s = .next t ∧ t.reg8 r = s.byteAt (s.indirect p) ∧ Reg8Unchanged [r] s t ∧ t.f = s.f ∧
      t.sp = s.sp ∧ t.pc = s.pc ∧ MemoryUnchanged [] s t ∧ OutputsUnchanged s t :=
  have frame : TableEntry.Permits ⟨keptRow, [r], [], false, false⟩ s (s.setReg8 r (s.byteAt (s.indirect p))) :=
    permits_setReg8 _
  ⟨_, loadIndirect_eq r p s, State.reg8_setReg8_self s r _, frame.regs, State.setReg8_f s r _, frame.sp rfl, frame.pc rfl,
    frame.stores, State.setReg8_rotateVariant s r _, State.setReg8_signal s r _⟩

/-- A store through a pair changes the byte at the pair's address (R105 to R107). -/
theorem storeIndirect_spec (p : Pair) (r : Reg8) (s : State) :
    ∃ t, storeIndirect p r s = .next t ∧ t.byteAt (s.indirect p) = s.reg8 r ∧ MemoryUnchanged [s.indirect p] s t ∧
      Reg8Unchanged [] s t ∧ t.f = s.f ∧ t.sp = s.sp ∧ t.pc = s.pc ∧ OutputsUnchanged s t :=
  have frame : TableEntry.Permits ⟨keptRow, [], [s.indirect p], false, false⟩ s
      { s with mem := s.mem.write (s.indirect p).toNat (s.reg8 r) } := permits_write _ _
  ⟨_, storeIndirect_eq p r s, Memory.read_write_self s.mem _ _, frame.stores, frame.regs, rfl, rfl, rfl, rfl, rfl⟩

/-- A store with update stores A at the old HL and writes the updated HL (R108, R109). -/
theorem storeAndUpdateHL_spec (update : Addr → Addr) (s : State) :
    ∃ t, storeAndUpdateHL update s = .next t ∧ t.byteAt (s.indirect .hl) = s.a ∧ t.pair .hl = update (s.pair .hl) ∧
      MemoryUnchanged [s.indirect .hl] s t ∧ Reg8Unchanged [.h, .l] s t ∧ t.f = s.f ∧ t.sp = s.sp ∧ t.pc = s.pc ∧
      OutputsUnchanged s t :=
  have frame : TableEntry.Permits ⟨keptRow, [.h, .l], [s.indirect .hl], false, false⟩ s
      (State.setPair { s with mem := s.mem.write (s.indirect .hl).toNat s.a } .hl (update (s.indirect .hl))) :=
    permits_write_setPair _ _ .hl _
  ⟨_, storeAndUpdateHL_eq update s, Memory.read_write_self s.mem _ _, State.pair_setPair_self _ .hl _, frame.stores,
    frame.regs, rfl, frame.sp rfl, frame.pc rfl, rfl, rfl⟩

/-- A high-page store changes the byte at `0xFF00` plus the offset, and no register (R110, R111). -/
theorem storeHighPage_spec (n : Byte) (s : State) :
    ∃ t, storeHighPage n s = .next t ∧ t.byteAt (highPage n) = s.a ∧ MemoryUnchanged [highPage n] s t ∧
      t.snapshot = s.snapshot ∧ OutputsUnchanged s t :=
  ⟨_, storeHighPage_eq n s, Memory.read_write_self s.mem _ _, memoryUnchanged_write _ _ s, rfl, rfl, rfl⟩

end Sys2Proof.Machine

open Sys2Proof Sys2Proof.Machine

/-- Settles O31: the nine instructions run the load through their pair, by the three forms of the hypothesis. -/
theorem loadIndirect : Obligations.LoadIndirect := by
  intro i r p op hform s
  obtain ⟨hruns, hexec⟩ : RunsAt i [op] ∧ exec i s = Machine.loadIndirect r p s := by
    obtain ⟨rfl, rfl, rfl, rfl⟩ | ⟨rfl, rfl, rfl, rfl⟩ | ⟨rfl, rfl, rfl⟩ := hform
    · exact ⟨runsAt_of_encode rfl rfl nofun, rfl⟩
    · exact ⟨runsAt_of_encode rfl rfl nofun, rfl⟩
    · exact ⟨runsAt_ldRIndHL r, exec_ldRIndHL r s⟩
  obtain ⟨t, ht, hvalue, frame⟩ := loadIndirect_spec r p s
  exact ⟨hruns, t, hexec.trans ht, hvalue, rfl, frame⟩

/-- Settles O32: the nine instructions run the store through their pair, by the three forms of the hypothesis. -/
theorem storeIndirect : Obligations.StoreIndirect := by
  intro i r p op hform s
  obtain ⟨hruns, hexec⟩ : RunsAt i [op] ∧ exec i s = Machine.storeIndirect p r s := by
    obtain ⟨rfl, rfl, rfl, rfl⟩ | ⟨rfl, rfl, rfl, rfl⟩ | ⟨rfl, rfl, rfl⟩ := hform
    · exact ⟨runsAt_of_encode rfl rfl nofun, rfl⟩
    · exact ⟨runsAt_of_encode rfl rfl nofun, rfl⟩
    · exact ⟨runsAt_ldIndHLR r, exec_ldIndHLR r s⟩
  obtain ⟨t, ht, hvalue, frame⟩ := storeIndirect_spec p r s
  exact ⟨hruns, t, hexec.trans ht, hvalue, rfl, frame⟩

/-- Settles O33: both instructions are the store with update, one with plus and one with minus. -/
theorem storeAndUpdateHL : Obligations.StoreAndUpdateHL :=
  fun s =>
    ⟨⟨runsAt_of_encode rfl rfl nofun, storeAndUpdateHL_spec (fun hl => hl + 1) s⟩,
      ⟨runsAt_of_encode rfl rfl nofun, storeAndUpdateHL_spec (fun hl => hl - 1) s⟩⟩

/-- Settles O34: both instructions are the high-page store, at the operand byte or at C. -/
theorem storeHighPage : Obligations.StoreHighPage :=
  fun n s =>
    ⟨toNat_highPage n, ⟨runsAt_of_encode rfl rfl nofun, storeHighPage_spec n s⟩,
      ⟨runsAt_of_encode rfl rfl nofun, storeHighPage_spec s.c s⟩⟩
end

section
/-! The rotates (42_rotate.md): the opcode bytes, the rotate-left unit bit by bit, and the rotate it is: of the byte in the
circular variant, of the carry and the byte together in the other. -/

namespace Sys2Proof.Machine

/-- The bytes of `RLC r` are the prefix and the extended opcode with the register code in bits 2 to 0 (R65, R131). -/
theorem runsAt_rlcR (r : Reg8) : RunsAt (.rlcR r) [0xCB, inFieldZ 0b00000_000 r.code] := by
  cases r <;> exact runsAt_of_encode rfl rfl nofun

/-! ### The rotate-left unit, bit by bit -/

theorem getLsbD_append1 (x : BitVec 7) (b : BitVec 1) (i : Nat) :
    BitVec.getLsbD (x ++ b : Byte) i = if i < 1 then b.getLsbD i else x.getLsbD (i - 1) :=
  BitVec.getLsbD_append (x := x) (y := b) (i := i)

/-- The seven low bits move up by one, in both variants (R132). -/
theorem getLsbD_succ_rotL (variant : RotateVariant) (v : Byte) (cin : Bool) {k : Nat} (hk : k < 7) :
    (rotL variant v cin).res.getLsbD (k + 1) = v.getLsbD k := by
  cases variant <;> simp [rotL, getLsbD_append1, hk]

/-- The circular rotate fills bit 0 from bit 7 (R132). -/
theorem getLsbD_zero_rotL_circular (v : Byte) (cin : Bool) :
    (rotL .circular v cin).res.getLsbD 0 = v.getLsbD 7 := by
  rw [rotL, getLsbD_append1]
  simp

/-- The rotate through carry fills bit 0 from the old carry (R132). -/
theorem getLsbD_zero_rotL_throughCarry (v : Byte) (cin : Bool) :
    (rotL .throughCarry v cin).res.getLsbD 0 = cin := by
  rw [rotL, getLsbD_append1]
  simp

/-! ### The rotates as rotates of a word -/

/-- After `n` rotates by one, a bit is the one that stood `n` places nearer bit 0, around the word. -/
theorem getMsbD_rotateLeft_one_iterate {w : Nat} (x : BitVec w) (n : Nat) {i : Nat} (hi : i < w) :
    ((fun y : BitVec w => y.rotateLeft 1)^[n] x).getMsbD i = x.getMsbD ((n + i) % w) := by
  induction n generalizing i with
  | zero => rw [Function.iterate_zero_apply, Nat.zero_add, Nat.mod_eq_of_lt hi]
  | succ n ih =>
    have hnext : (1 + i) % w < w := Nat.mod_lt _ (by omega)
    rw [Function.iterate_succ_apply', BitVec.getMsbD_rotateLeft, ih hnext, Nat.add_mod_mod, Nat.add_assoc]
    simp [hi]

/-- Rotating a word by one as many times as it has bits restores it. -/
theorem rotateLeft_one_iterate_width {w : Nat} (x : BitVec w) : (fun y : BitVec w => y.rotateLeft 1)^[w] x = x := by
  apply BitVec.eq_of_getMsbD_eq
  intro i hi
  rw [getMsbD_rotateLeft_one_iterate x w hi, Nat.add_mod_left, Nat.mod_eq_of_lt hi]

/-- The circular rotate is the rotate of the byte by one. -/
theorem rotL_circular_res (v : Byte) (cin : Bool) : (rotL .circular v cin).res = v.rotateLeft 1 := by
  apply BitVec.eq_of_getLsbD_eq
  intro i hi
  rw [BitVec.getLsbD_rotateLeft_of_le (by decide)]
  cases i with
  | zero => exact getLsbD_zero_rotL_circular v cin
  | succ k =>
    rw [getLsbD_succ_rotL _ _ _ (by omega)]
    simp [hi]

/-- The carry and the byte as one word of nine bits, the carry highest (R132). -/
def carryAndByte (x : Byte × Bool) : BitVec 9 := .cons x.2 x.1

theorem carryAndByte_injective : Function.Injective carryAndByte := by
  rintro ⟨v, c⟩ ⟨v', c'⟩ (h : BitVec.cons c v = BitVec.cons c' v')
  have hbyte : v = v' := by simpa using congrArg (BitVec.setWidth 8) h
  have hcarry : c = c' := by simpa using congrArg BitVec.msb h
  rw [hbyte, hcarry]

/-- The rotate through carry of a byte and the carry, which takes the bit rotated out. -/
def rotateThroughCarry (x : Byte × Bool) : Byte × Bool :=
  ((rotL .throughCarry x.1 x.2).res, (rotL .throughCarry x.1 x.2).out)

/-- The rotate through carry is the rotate of the nine-bit word by one. -/
theorem carryAndByte_rotateThroughCarry :
    Function.Semiconj carryAndByte rotateThroughCarry fun y => y.rotateLeft 1 := by
  rintro ⟨v, c⟩
  apply BitVec.eq_of_getLsbD_eq
  intro i hi
  rw [BitVec.getLsbD_rotateLeft_of_le (by decide)]
  simp only [carryAndByte, rotateThroughCarry, BitVec.getLsbD_cons]
  cases i with
  | zero => exact getLsbD_zero_rotL_throughCarry v c
  | succ k =>
    by_cases hk : k = 7
    · subst hk
      simp [rotL]
    · have hne : k ≠ 8 := by omega
      rw [getLsbD_succ_rotL _ _ _ (by omega)]
      simp [hk, hne, hi]

theorem rotateThroughCarry_iterate_nine (x : Byte × Bool) : rotateThroughCarry^[9] x = x := by
  apply carryAndByte_injective
  rw [carryAndByte_rotateThroughCarry.iterate_right 9 x, rotateLeft_one_iterate_width]

end Sys2Proof.Machine

open Sys2Proof Sys2Proof.Machine

/-- Settles O38: both forms run the one rotate, whose result and flags are those of the rotate-left unit. -/
theorem rotateLeft : Obligations.RotateLeft := by
  intro i r bytes hform s
  obtain ⟨hruns, hexec⟩ : RunsAt i bytes ∧ exec i s = rotateReg8 r s := by
    obtain ⟨rfl, rfl, rfl⟩ | ⟨rfl, rfl⟩ := hform
    · exact ⟨runsAt_of_encode rfl rfl nofun, exec_rla s⟩
    · exact ⟨runsAt_rlcR r, exec_rlcR r s⟩
  refine ⟨hruns, _, hexec, ?_⟩
  simp only [State.reg8_with_f, State.reg8_setReg8_self]
  refine ⟨fun k hk => getLsbD_succ_rotL _ _ _ hk, fun hv => ?_, fun hv => ?_, rfl, rfl, rfl, rfl,
    setReg8_flags_frame s r _ _⟩
  · rw [hv, getLsbD_zero_rotL_circular]
  · rw [hv, getLsbD_zero_rotL_throughCarry]

/-- Settles O39: the circular rotate is a rotate of eight bits, the other one of nine. -/
theorem rotatesRestoreTheByte : Obligations.RotatesRestoreTheByte := by
  intro v c
  refine ⟨?_, rotateThroughCarry_iterate_nine (v, c)⟩
  simp only [rotL_circular_res]
  exact rotateLeft_one_iterate_width v
end

section
/-! Add, exclusive-or and compare (43_arith_compare.md): what `Add8` and `Cmp8` return, and what a change of the flags alone
leaves unchanged. -/

namespace Sys2Proof.Machine

/-- The sum and the three flags of `Add8` (R144). -/
theorem add8_spec (a b : Byte) :
    (add8 a b).res.toNat = (a.toNat + b.toNat) % 256 ∧ ((add8 a b).z = true ↔ (add8 a b).res = 0) ∧
      ((add8 a b).h = true ↔ a.toNat % 16 + b.toNat % 16 > 15) ∧ ((add8 a b).c = true ↔ a.toNat + b.toNat > 255) :=
  ⟨BitVec.toNat_ofNat _ 8, beq_iff_eq, decide_eq_true_iff, decide_eq_true_iff⟩

/-- The three flags of `Cmp8` (R145). -/
theorem cmp8_spec (a b : Byte) :
    ((cmp8 a b).z = true ↔ a = b) ∧ ((cmp8 a b).h = true ↔ a.toNat % 16 < b.toNat % 16) ∧
      ((cmp8 a b).c = true ↔ a.toNat < b.toNat) :=
  ⟨beq_iff_eq, decide_eq_true_iff, decide_eq_true_iff⟩

/-- The flags of `XOR A,A` as the byte F (R16, R141). -/
theorem toByte_ofXorAA : Flags.ofXorAA.toByte = 0x80 := by decide

/-- What a change of the flags alone leaves as it was (R142, R143). -/
theorem flags_frame (s : State) (f : Flags) :
    Reg8Unchanged [] s { s with f := f } ∧ ({ s with f := f } : State).sp = s.sp ∧
      ({ s with f := f } : State).pc = s.pc ∧ MemoryUnchanged [] s { s with f := f } ∧
      OutputsUnchanged s { s with f := f } :=
  ⟨fun r _ => State.reg8_with_f s f r, rfl, rfl, fun x _ => State.byteAt_with_f s f x, rfl, rfl⟩

end Sys2Proof.Machine

open Sys2Proof Sys2Proof.Machine

/-- Settles O40: the sum and the flags of `Add8`, and the write of A and the flags. -/
theorem addMemoryToA : Obligations.AddMemoryToA := by
  rintro s v rfl
  obtain ⟨hres, hz, hh, hc⟩ := add8_spec s.a (s.byteAt (s.indirect .hl))
  exact ⟨runsAt_of_encode rfl rfl nofun, _, exec_addAIndHL s, hres, hz, rfl, hh, hc, setReg8_flags_frame s .a _ _⟩

/-- Settles O41: a byte exclusive-or itself is zero, and the flags are constant. -/
theorem xorAWithItself : Obligations.XorAWithItself :=
  fun s =>
    ⟨runsAt_of_encode rfl rfl nofun, _, exec_xorAA s, BitVec.xor_self, toByte_ofXorAA, setReg8_flags_frame s .a _ _⟩

/-- Settles O42: both forms run the one comparison, of A with the immediate or with the byte at HL. -/
theorem compareWithA : Obligations.CompareWithA := by
  intro i bytes v s hform
  obtain ⟨hruns, hexec⟩ : RunsAt i bytes ∧ exec i s = .next { s with f := Flags.ofCmp (cmp8 s.a v) } := by
    obtain ⟨rfl, rfl⟩ | ⟨rfl, rfl, rfl⟩ := hform
    · exact ⟨runsAt_of_encode rfl rfl nofun, exec_cpAn8 v s⟩
    · exact ⟨runsAt_of_encode rfl rfl nofun, exec_cpAIndHL s⟩
  obtain ⟨hz, hh, hc⟩ := cmp8_spec s.a v
  exact ⟨hruns, _, hexec, hz, rfl, hh, hc, flags_frame s _⟩
end

section
/-! Control flow (44_control_flow.md): the relative jump taken or not, what a call and a return leave unchanged, and the
return that undoes a push. -/

namespace Sys2Proof.Machine

/-! ### The relative jump -/

/-- The displacement byte is added as a signed number (R64, R150). -/
theorem relativeTarget_eq (pc : Addr) (e : Byte) : relativeTarget pc e = pc + BitVec.ofInt 16 e.toInt := rfl

theorem exec_jrNZe8_taken {s : State} (hz : s.f.z = false) (e : Byte) :
    exec (.jrNZe8 e) s = .next { s with pc := s.pc + BitVec.ofInt 16 e.toInt } := by
  rw [exec_jrNZe8, hz, relativeTarget_eq]
  rfl

theorem exec_jrNZe8_not_taken {s : State} (hz : s.f.z = true) (e : Byte) : exec (.jrNZe8 e) s = .next s := by
  rw [exec_jrNZe8, hz]
  rfl

/-! ### The call and the return -/

/-- The bytes of `CALL a16` are the opcode and the target, low byte first (R64, R151; D7). -/
theorem runsAt_callA16 (lo hi : Byte) : RunsAt (.callA16 (word16 lo hi)) [0xCD, lo, hi] :=
  runsAt_of_encode (by rw [encode, immLow_word16, immHigh_word16]) rfl nofun

theorem runsAt_ret : RunsAt .ret [0xC9] :=
  runsAt_of_encode rfl rfl nofun

/-- What a push leaves at the new SP and above it is the pushed word, low byte first (R41 a, R160). -/
theorem pushedMem_word (s : State) (v : Addr) :
    ((pushedMem s v).read (s.sp - 1 - 1 + 1).toNat ++ (pushedMem s v).read (s.sp - 1 - 1).toNat : Addr) = v := by
  rw [BitVec.sub_add_cancel, sub_one_sub_one, read_pushedMem, read_pushedMem, if_neg (sub_one_ne_sub_two s.sp), if_pos rfl,
    if_pos rfl, highByte_append_lowByte]

/-- A return with a word pushed in `s` on top of the stack jumps to it and leaves SP as it was in `s` (R153). -/
theorem exec_ret_of_pushed {s t : State} {v : Addr} (hsp : t.sp = s.sp - 1 - 1) (hmem : t.mem = pushedMem s v) :
    exec .ret t = .next { t with pc := v, sp := s.sp } := by
  rw [exec_ret, State.byteAt, State.byteAt, hsp, hmem, pushedMem_word, BitVec.sub_add_cancel, BitVec.sub_add_cancel]

/-- A Step over `0xC9` executes RET, whatever the bytes after it are (R61, R152). -/
theorem step_ret {t : State} (h : t.byteAt t.pc = 0xC9) :
    step t = exec .ret { t with pc := t.pc + 1, signal := none } :=
  step_of_decode_singleton (by rw [h]; rfl) nofun

end Sys2Proof.Machine

open Sys2Proof Sys2Proof.Machine

/-- Settles O47: the Step over CALL pushes the PC past its three bytes, and the RET pops that word. -/
theorem callThenReturnComesBack : Obligations.CallThenReturnComesBack := by
  intro s t target rest hdecode hcall hret
  have ht := (step_of_decode_window hdecode).trans (exec_callA16 target _)
  cases hcall.symm.trans ht
  refine ⟨_, (step_ret hret).trans (exec_ret_of_pushed (s := afterFetch s (.callA16 target)) rfl rfl), rfl, rfl, rfl, ?_⟩
  intro r _
  cases r <;> rfl

/-- Settles O44, by the flag Z. -/
theorem jumpRelativeIfNotZero : Obligations.JumpRelativeIfNotZero :=
  fun e _ =>
    ⟨runsAt_of_encode rfl rfl nofun, fun hz => exec_jrNZe8_taken hz e, fun hz => exec_jrNZe8_not_taken hz e⟩

/-- Settles O45, by the two bytes a push stores. -/
theorem callPushesTheReturnAddress : Obligations.CallPushesTheReturnAddress := by
  intro lo hi s
  obtain ⟨hhigh, hlow⟩ := read_pushedMem_stored s s.pc
  have frame : TableEntry.Permits ⟨keptRow, [], [s.sp - 1, s.sp - 2], true, true⟩ s
      { s with pc := word16 lo hi, sp := s.sp - 1 - 1, mem := pushedMem s s.pc } := permits_push _ nofun
  exact ⟨runsAt_callA16 lo hi, _, exec_callA16 _ s, toNat_highLow hi lo, sub_one_sub_one s.sp, hhigh, hlow, frame.stores,
    frame.regs, rfl, rfl, rfl⟩

/-- Settles O46: the popped word has the byte at SP + 1 high, and only PC and SP change. -/
theorem returnPopsPC : Obligations.ReturnPopsPC := by
  intro s
  have frame : TableEntry.Permits ⟨keptRow, [], [], true, true⟩ s
      { s with pc := s.byteAt (s.sp + 1) ++ s.byteAt s.sp, sp := s.sp + 1 + 1 } :=
    permits_control s.signal (keptRow_holds rfl) nofun nofun
  exact ⟨runsAt_ret, _, exec_ret s, toNat_highLow _ _, add_one_add_one s.sp, frame.stores, frame.regs, rfl, rfl, rfl⟩
end

section
/-! The stack (45_stack.md): the opcode bytes of POP, and the pop that undoes a push, into any pair. -/

namespace Sys2Proof.Machine

/-- The bytes of `POP rr` have the pair code in bits 5 and 4 (R65, R161). -/
theorem runsAt_popRR (p : Pair) : RunsAt (.popRR p) [inFieldP 0b11_00_0001 p.code] := by
  cases p <;> exact runsAt_of_encode rfl rfl nofun

/-- A pop with a word pushed in `s` on top of the stack takes it and leaves SP as it was in `s` (R162). -/
theorem exec_popRR_of_pushed (q : Pair) {s t : State} {v : Addr} (hsp : t.sp = s.sp - 1 - 1)
    (hmem : t.mem = pushedMem s v) :
    exec (.popRR q) t = .next (State.setPair { t with sp := s.sp } q v) := by
  rw [exec_popRR, popPair_eq, State.byteAt, State.byteAt, hsp, hmem, pushedMem_word, BitVec.sub_add_cancel,
    BitVec.sub_add_cancel]

end Sys2Proof.Machine

open Sys2Proof Sys2Proof.Machine

/-- Settles O50: the POP takes the word the PUSH stored, and a pair's write leaves the registers outside it. -/
theorem pushThenPopMovesThePair : Obligations.PushThenPopMovesThePair := by
  intro p q s
  have hpush := (exec_pushRR p s).trans (pushPair_eq p s)
  refine ⟨_, _, hpush, exec_popRR_of_pushed q (s := s) rfl rfl, State.pair_setPair_self _ q _, State.setPair_sp _ q _,
    State.setPair_f _ q _, ?_⟩
  intro r hr
  exact (reg8Unchanged_setPair _ q _ r hr).trans (State.reg8_with_mem s _ r)

/-- Settles O49: the popped word has the byte at SP + 1 high, and only SP and the pair change. -/
theorem popPair : Obligations.PopPair := by
  intro p s
  have frame : TableEntry.Permits ⟨keptRow, p.halves, [], false, true⟩ s
      (State.setPair { s with sp := s.sp + 1 + 1 } p (s.byteAt (s.sp + 1) ++ s.byteAt s.sp)) := permits_setPair p _ nofun
  refine ⟨runsAt_popRR p, _, (exec_popRR p s).trans (popPair_eq p s), ?_,
    (State.setPair_sp _ p _).trans (add_one_add_one s.sp), frame.regs, frame.stores, State.setPair_f _ p _, frame.pc rfl,
    State.setPair_rotateVariant _ p _, State.setPair_signal _ p _⟩
  rw [State.pair_setPair_self]
  exact toNat_highLow (s.byteAt (s.sp + 1)) (s.byteAt s.sp)
end

section
/-! The bit test (46_bit_test.md): the opcode bytes of the 56 forms, and the flags of `BIT b,r`. -/

namespace Sys2Proof.Machine

/-- The bytes of `BIT b,r` are the prefix and the extended opcode with the bit index in bits 5 to 3 and the register code in
bits 2 to 0 (R65, R171). -/
theorem runsAt_bitBR (b : Fin 8) (r : Reg8) :
    RunsAt (.bitBR b r) [0xCB, 0b01_000_000 ||| BitVec.ofNat 8 (8 * b.val) ||| r.code] := by
  fin_cases b <;> cases r <;> exact runsAt_of_encode rfl rfl nofun

/-- The four flags of `BIT b,r` when the tested bit is `t` (R171). -/
theorem afterBit_spec (f : Flags) (t : Bool) :
    ((f.afterBit t).z = true ↔ t = false) ∧ (f.afterBit t).n = false ∧ (f.afterBit t).h = true ∧
      (f.afterBit t).c = f.c :=
  ⟨iff_of_eq (Bool.not_eq_true' t), rfl, rfl, rfl⟩

end Sys2Proof.Machine

open Sys2Proof Sys2Proof.Machine

/-- Settles O43: every form runs the one bit test, which changes the flags alone. -/
theorem bitTest : Obligations.BitTest := by
  intro b r s
  obtain ⟨hz, hn, hh, hc⟩ := afterBit_spec s.f ((s.reg8 r).getLsbD b.val)
  exact ⟨runsAt_bitBR b r, _, exec_bitBR b r s, hz, hn, hh, hc, flags_frame s _⟩
end

section
/-! Failures (60_exceptions.md): the failure output of every instruction, the Steps of a run up to its first signal, and what
the driver makes of them under each policy. -/

namespace Sys2Proof.Machine

/-! ### The failure output of an instruction -/

/-- Every meaning but a fallback's leaves the failure output (R200, R208), by family; the bare `0xCB` has no meaning of its
own. -/
theorem exec_keeps_signal (i : Instr) (s : State) (hi : i ≠ .prefixCB) (hp : ∀ op, i ≠ .unimplementedPrimary op)
    (hx : ∀ x, i ≠ .unimplementedExtended x) : ∃ t, exec i s = .next t ∧ t.signal = s.signal := by
  induction i using Instr.byFamily with
  | ldRN8 r n => exact ⟨_, exec_ldRN8 r n s, State.setReg8_signal _ _ _⟩
  | ldRRN16 r v => exact ⟨_, exec_ldRRN16 r v s, State.setReg16_signal _ _ _⟩
  | ldAIndBC => exact ⟨_, exec_ldAIndBC s, rfl⟩
  | ldAIndDE => exact ⟨_, exec_ldAIndDE s, rfl⟩
  | ldRIndHL r => exact ⟨_, (exec_ldRIndHL r s).trans (loadIndirect_eq r .hl s), State.setReg8_signal _ _ _⟩
  | ldIndBCA => exact ⟨_, exec_ldIndBCA s, rfl⟩
  | ldIndDEA => exact ⟨_, exec_ldIndDEA s, rfl⟩
  | ldIndHLR r => exact ⟨_, (exec_ldIndHLR r s).trans (storeIndirect_eq .hl r s), rfl⟩
  | ldIndHLIncA => exact ⟨_, exec_ldIndHLIncA s, State.setPair_signal _ _ _⟩
  | ldIndHLDecA => exact ⟨_, exec_ldIndHLDecA s, State.setPair_signal _ _ _⟩
  | ldhIndA8A n => exact ⟨_, exec_ldhIndA8A n s, rfl⟩
  | ldhIndCA => exact ⟨_, exec_ldhIndCA s, rfl⟩
  | incR r => exact ⟨_, exec_incR r s, State.setReg8_signal _ _ _⟩
  | decR r => exact ⟨_, exec_decR r s, State.setReg8_signal _ _ _⟩
  | incRR r => exact ⟨_, exec_incRR r s, State.setReg16_signal _ _ _⟩
  | rla => exact ⟨_, exec_rla s, rfl⟩
  | rlcR r => exact ⟨_, exec_rlcR r s, State.setReg8_signal _ _ _⟩
  | addAIndHL => exact ⟨_, exec_addAIndHL s, rfl⟩
  | xorAA => exact ⟨_, exec_xorAA s, rfl⟩
  | cpAn8 n => exact ⟨_, exec_cpAn8 n s, rfl⟩
  | cpAIndHL => exact ⟨_, exec_cpAIndHL s, rfl⟩
  | jrNZe8 e => exact ⟨_, exec_jrNZe8 e s, rfl⟩
  | callA16 a => exact ⟨_, exec_callA16 a s, rfl⟩
  | ret => exact ⟨_, exec_ret s, rfl⟩
  | pushRR p => exact ⟨_, (exec_pushRR p s).trans (pushPair_eq p s), rfl⟩
  | popRR p => exact ⟨_, (exec_popRR p s).trans (popPair_eq p s), State.setPair_signal _ _ _⟩
  | prefixCB => exact absurd rfl hi
  | bitBR b r => exact ⟨_, exec_bitBR b r s, rfl⟩
  | unimplementedPrimary op => exact absurd rfl (hp op)
  | unimplementedExtended x => exact absurd rfl (hx x)

/-- An instruction is one of the two fallbacks, or neither. -/
theorem fallback_cases (i : Instr) :
    (∃ op, i = .unimplementedPrimary op) ∨ (∃ x, i = .unimplementedExtended x) ∨
      ((∀ op, i ≠ .unimplementedPrimary op) ∧ ∀ x, i ≠ .unimplementedExtended x) := by
  by_cases hp : ∃ op, i = .unimplementedPrimary op
  · exact .inl hp
  · by_cases hx : ∃ x, i = .unimplementedExtended x
    · exact .inr (.inl hx)
    · exact .inr (.inr ⟨not_exists.mp hp, not_exists.mp hx⟩)

/-! ### A run up to its first signal -/

/-- `m` Steps without a signal lead from `s` to a Step that ends in `t` with the signal `sig`. -/
def FirstSignal (m : Nat) (s t : State) (sig : OpcodeSignal) : Prop :=
  ∃ u, CleanRun m s u ∧ step u = .next t ∧ t.signal = some sig

/-- `n` Steps from a state signal nothing, or one of them is the first that signals. -/
theorem cleanRun_or_firstSignal (n : Nat) (s : State) :
    (∃ t, CleanRun n s t) ∨ ∃ m < n, ∃ t sig, FirstSignal m s t sig := by
  induction n generalizing s with
  | zero => exact .inl ⟨s, rfl⟩
  | succ n ih =>
    obtain ⟨v, hs, -⟩ := step_completes s
    cases hv : v.signal with
    | some sig => exact .inr ⟨0, Nat.succ_pos n, v, sig, s, rfl, hs, hv⟩
    | none =>
      obtain ⟨t, hclean⟩ | ⟨m, hm, t, sig, u, hclean, hu⟩ := ih v
      · exact .inl ⟨t, v, ⟨hs, hv⟩, hclean⟩
      · exact .inr ⟨m + 1, Nat.succ_lt_succ hm, t, sig, u, ⟨v, ⟨hs, hv⟩, hclean⟩, hu⟩

/-- No policy acts on a Step without a signal: the driver goes on after it (R206). -/
theorem drive_after_cleanRun {policy : UnimplPolicy} {m k : Nat} {s u : State} {r : RunRecord} (hclean : CleanRun m s u)
    (hr : drive policy k u = .next r) :
    drive policy (m + k) s = .next { final := r.final, signals := List.replicate m none ++ r.signals } := by
  induction m generalizing s with
  | zero =>
    cases hclean
    rwa [Nat.zero_add]
  | succ m ih =>
    obtain ⟨v, ⟨hs, hv⟩, hrest⟩ := hclean
    have goes_on : ¬ (policy = .stopRun ∧ v.signal.isSome) := by simp [hv]
    rw [Nat.add_right_comm, drive_goes_on hs goes_on (ih hrest), hv]
    rfl

theorem drive_of_cleanRun (policy : UnimplPolicy) {n : Nat} {s t : State} (hclean : CleanRun n s t) :
    drive policy n s = .next { final := t, signals := List.replicate n none } := by
  simpa using drive_after_cleanRun hclean (drive_zero policy t)

/-- Under `stop` the first signal is the last outcome, however many Steps there are left (R206). -/
theorem drive_stop_of_firstSignal {m n : Nat} {s t : State} {sig : OpcodeSignal} (h : FirstSignal m s t sig)
    (hn : m < n) : drive .stopRun n s = .next { final := t, signals := List.replicate m none ++ [some sig] } := by
  obtain ⟨u, hclean, hu, hsig⟩ := h
  obtain ⟨k, rfl⟩ := Nat.exists_eq_add_of_lt hn
  rw [Nat.add_assoc, drive_after_cleanRun hclean (drive_stops k hu (by rw [hsig]; rfl)), hsig]

/-- Under `continue` the first signal is among the outcomes (R206). -/
theorem drive_continue_of_firstSignal {m : Nat} {s t : State} {sig : OpcodeSignal} (h : FirstSignal m s t sig) :
    ∃ r, drive .continueRun (m + 1) s = .next r ∧ some sig ∈ r.signals := by
  obtain ⟨u, hclean, hu, hsig⟩ := h
  refine ⟨_, drive_after_cleanRun hclean (drive_goes_on hu nofun (drive_zero _ t)), ?_⟩
  simp [hsig]

/-! ### The end of an unbounded run under `stop` -/

/-- A run has one end. -/
theorem RunEnds.unique {policy : UnimplPolicy} {length : RunLength} {s : State} {r r' : RunRecord}
    (h : RunEnds policy length s r) (h' : RunEnds policy length s r') : r = r' := by
  obtain ⟨k, hk⟩ := h
  obtain ⟨k', hk'⟩ := h'
  have same := (hk (max k k') (Nat.le_max_left k k')).symm.trans (hk' (max k k') (Nat.le_max_right k k'))
  injection same

theorem runEnds_of_firstSignal {m : Nat} {s t : State} {sig : OpcodeSignal} (h : FirstSignal m s t sig) :
    RunEnds .stopRun .unbounded s { final := t, signals := List.replicate m none ++ [some sig] } :=
  ⟨m + 1, fun _ hj => drive_stop_of_firstSignal h hj⟩

/-- A run of `n` Steps without a signal has `n` outcomes. -/
theorem length_of_cleanRun {policy : UnimplPolicy} {n : Nat} {s t : State} {r : RunRecord} (hclean : CleanRun n s t)
    (hr : runSeq policy .unbounded s n = .next r) : r.signals.length = n := by
  cases hr.symm.trans (drive_of_cleanRun policy hclean)
  exact List.length_replicate

/-- An unbounded run that ends has a first signal: without one its record would have to stay while the run grows. -/
theorem exists_firstSignal_of_runEnds {policy : UnimplPolicy} {s : State} {r : RunRecord}
    (h : RunEnds policy .unbounded s r) : ∃ m t sig, FirstSignal m s t sig := by
  by_contra hnone
  have clean (n : Nat) : ∃ t, CleanRun n s t :=
    (cleanRun_or_firstSignal n s).resolve_right fun ⟨m, _, t, sig, hfirst⟩ => hnone ⟨m, t, sig, hfirst⟩
  obtain ⟨k, hend⟩ := h
  obtain ⟨t, clean_k⟩ := clean k
  obtain ⟨t', clean_succ⟩ := clean (k + 1)
  have at_k := length_of_cleanRun clean_k (hend k (Nat.le_refl k))
  have at_succ := length_of_cleanRun clean_succ (hend (k + 1) (Nat.le_succ k))
  omega

/-- A signal among the outcomes of a run under `continue` is not before the first one. -/
theorem exists_firstSignal_of_mem {k : Nat} {s : State} {r : RunRecord} {sig : OpcodeSignal}
    (hr : drive .continueRun k s = .next r) (hmem : some sig ∈ r.signals) : ∃ m t sig', FirstSignal m s t sig' := by
  obtain ⟨t, hclean⟩ | ⟨m, -, t, sig', hfirst⟩ := cleanRun_or_firstSignal k s
  · cases hr.symm.trans (drive_of_cleanRun .continueRun hclean)
    exact absurd (List.eq_of_mem_replicate hmem) nofun
  · exact ⟨m, t, sig', hfirst⟩

end Sys2Proof.Machine

open Sys2Proof Sys2Proof.Machine

/-- Settles O15: a Step clears the failure output before the instruction runs, and only the two fallbacks set it. -/
theorem stepSignalsExactlyTheUnimplemented : Obligations.StepSignalsExactlyTheUnimplemented := by
  intro s t i rest hdecode hstep
  obtain ⟨i', rest', hdecode', hne, hrun⟩ := step_runs_window s
  cases hdecode.symm.trans hdecode'
  have hexec := hrun.symm.trans hstep
  obtain ⟨op, rfl⟩ | ⟨x, rfl⟩ | ⟨hp, hx⟩ := fallback_cases i
  · cases hexec
    exact .inl ⟨op, rfl, rfl⟩
  · cases hexec
    exact .inr (.inl ⟨x, rfl, rfl⟩)
  · obtain ⟨u, hu, hsignal⟩ := exec_keeps_signal i (afterFetch s i) hne hp hx
    cases hexec.symm.trans hu
    exact .inr (.inr ⟨hp, hx, hsignal⟩)

/-- Settles O53: every Step completes, and under `continue` the driver goes on after each. -/
theorem continuePolicyMakesEveryStep : Obligations.ContinuePolicyMakesEveryStep := by
  intro n s
  obtain ⟨r, hr, -, hlen⟩ := drive_completes .continueRun n s
  exact ⟨r, hr, hlen rfl⟩

/-- Settles O54, by whether one of the `n` Steps signals. -/
theorem stopPolicyEndsAtTheFirstSignal : Obligations.StopPolicyEndsAtTheFirstSignal := by
  intro n s
  obtain ⟨t, hclean⟩ | ⟨m, hm, t, sig, hfirst⟩ := cleanRun_or_firstSignal n s
  · exact ⟨_, drive_of_cleanRun .stopRun hclean, fun x hx => List.eq_of_mem_replicate (List.mem_of_mem_dropLast hx),
      .inl List.length_replicate⟩
  · refine ⟨_, drive_stop_of_firstSignal hfirst hm, ?_, ?_⟩
    · simp
    · obtain heq | hlt := Nat.eq_or_lt_of_le (Nat.succ_le_of_lt hm)
      · exact .inl (by simpa using heq)
      · exact .inr ⟨by simpa using hlt, sig, List.getLast?_concat⟩

/-- Settles O57: both runs make the same Steps up to the first signal, where the one under `stop` ends. -/
theorem unboundedRunUnderStopEndsExactlyAtASignal : Obligations.UnboundedRunUnderStopEndsExactlyAtASignal := by
  refine fun s => ⟨⟨?_, ?_⟩, ?_⟩
  · rintro ⟨r, hend⟩
    obtain ⟨m, t, sig, hfirst⟩ := exists_firstSignal_of_runEnds hend
    obtain ⟨r', hr', hmem⟩ := drive_continue_of_firstSignal hfirst
    exact ⟨m + 1, r', sig, hr', hmem⟩
  · rintro ⟨k, r, sig, hr, hmem⟩
    obtain ⟨m, t, sig', hfirst⟩ := exists_firstSignal_of_mem hr hmem
    exact ⟨_, runEnds_of_firstSignal hfirst⟩
  · intro r hend
    obtain ⟨m, t, sig, hfirst⟩ := exists_firstSignal_of_runEnds hend
    cases hend.unique (runEnds_of_firstSignal hfirst)
    exact ⟨⟨sig, List.getLast?_concat⟩, by simp⟩
end

section
/-! The initial state (70_reset_and_hazards.md): what the two images leave at every address, and that both loads keep
storage canonical. -/

namespace Sys2Proof.Machine

/-- ROM bank N's image ends where region 1 does (R31, R241). -/
theorem romBankN_first_add_length (image : Vector Byte Config.romNSize) :
    Region.romBankN.first + image.toList.length = 0x8000 := by
  rw [Vector.length_toList]
  rfl

/-- What ROM bank N's image leaves at every address (R241). -/
theorem byteAt_loadRomN (image : Vector Byte Config.romNSize) (s : State) (x : Addr) :
    (loadRomN image s).byteAt x =
      if 0x4000 ≤ x.toNat ∧ x.toNat < 0x8000 then image.toList.getD (x.toNat - 0x4000) 0 else s.byteAt x := by
  simp only [State.byteAt, loadRomN, Memory.read_writeAll_getD, romBankN_first_add_length]
  rfl

/-- Region 1 lies inside the address space, so its image's bytes do. -/
theorem inv_loadRomN (image : Vector Byte Config.romNSize) {s : State} (h : Inv s) : Inv (loadRomN image s) :=
  Memory.wf_writeAll h ((romBankN_first_add_length image).trans_le (by decide))

/-- Bytes that fit region 0 lie inside the address space. -/
theorem inv_writeAll_romBank0 {bytes : List Byte} (hfits : bytes.length ≤ Config.bulkLoadCapacity) {s : State} (h : Inv s) :
    Inv { s with mem := s.mem.writeAll Region.romBank0.first bytes } :=
  Memory.wf_writeAll h ((Nat.add_le_add_left hfits _).trans (by decide))

end Sys2Proof.Machine

open Sys2Proof Sys2Proof.Machine

/-- Settles O28: from the reset state with the given variant the two loads change storage alone, the boot image last. -/
theorem initialStateOfARun : Obligations.InitialStateOfARun := by
  intro variant romN boot hfits
  have hcanonical : Inv (loadRomN romN { State.reset with rotateVariant := variant }) :=
    inv_loadRomN romN resetStorageIsCanonical
  refine ⟨_, bulkLoad_of_le hfits _, rfl, rfl, rfl, rfl, inv_writeAll_romBank0 hfits hcanonical, fun x => ?_⟩
  have hzero : ({ State.reset with rotateVariant := variant } : State).byteAt x = 0x00 := resetLeavesEveryByteZero.1 x
  rw [byteAt_writeAll_romBank0, byteAt_loadRomN, hzero]
end
